-- ==== Sys2Proof/Word.lean ====
section
/-! DEFINITION. The word types of the machine (spec 00 R8, 10 R20, 20 R100) and their plainest arithmetic. -/

namespace Sys2Proof

/-- One byte of the address space. -/
abbrev Byte := BitVec 8

/-- A half-word. -/
abbrev Half := BitVec 16

/-- A 32-bit word: register contents, addresses, instruction words. -/
abbrev Word := BitVec 32

/-- A register-number field of an instruction, RA, RB or RC (30 R163). -/
abbrev RegNum := BitVec 8

/-- An absolute-register number (10 R21). -/
abbrev AbsReg := BitVec 8

/-- A special-purpose register number, SA (10 R30). -/
abbrev SprNum := BitVec 8

/-- A trap vector number (60 R462). -/
abbrev VecNum := BitVec 8

end Sys2Proof
end

