-- ==== Sys2Proof/Syntax.lean ====
section
/-! DEFINITION. The instruction set as syntax: one constructor of `Instr` per row of spec/opcode_table.json
(formats 30 R164-R170). Reserved instruction fields are not part of an instruction (30 R173). -/

namespace Sys2Proof

/-- "RB or I" (30 R163): a register number (M = 0) or an 8-bit constant, always zero-extended (30 R171). -/
inductive SrcB where
  | reg (rb : RegNum)
  | imm (i : BitVec 8)
  deriving DecidableEq, Repr

/-- The instructions, in the order of the opcode table. A load or store carries its whole CNTL byte, bits 23-16
(30 R169); a JA format carries its A bit and its 16-bit word offset (30 R172); CLASS and SQRT carry the whole third
byte because the hardware stores the number it resolves to in IPB (47 R382). -/
inductive Instr where
  /-- CONSTN, 46_constant R373. -/
  | constn (ra : RegNum) (imm : BitVec 16)
  /-- CONSTH, 46_constant R372. -/
  | consth (ra : RegNum) (imm : BitVec 16)
  /-- CONST, 46_constant R371. -/
  | const (ra : RegNum) (imm : BitVec 16)
  /-- MTSRIM, 45_data_movement R349. -/
  | mtsrim (sa : SprNum) (imm : BitVec 16)
  /-- LOADL, 45_data_movement R334. -/
  | loadl (cntl : BitVec 8) (ra : RegNum) (b : SrcB)
  /-- CLZ, 49_miscellaneous R441. -/
  | clz (rc : RegNum) (b : SrcB)
  /-- EXBYTE, 45_data_movement R342. -/
  | exbyte (rc ra : RegNum) (b : SrcB)
  /-- INBYTE, 45_data_movement R345. -/
  | inbyte (rc ra : RegNum) (b : SrcB)
  /-- STOREL, 45_data_movement R336. -/
  | storel (cntl : BitVec 8) (ra : RegNum) (b : SrcB)
  /-- ADDS, 40_integer_addsub R207. -/
  | adds (rc ra : RegNum) (b : SrcB)
  /-- ADDU, 40_integer_addsub R208. -/
  | addu (rc ra : RegNum) (b : SrcB)
  /-- ADD, 40_integer_addsub R203. -/
  | add (rc ra : RegNum) (b : SrcB)
  /-- LOAD, 45_data_movement R333. -/
  | load (cntl : BitVec 8) (ra : RegNum) (b : SrcB)
  /-- ADDCS, 40_integer_addsub R205. -/
  | addcs (rc ra : RegNum) (b : SrcB)
  /-- ADDCU, 40_integer_addsub R206. -/
  | addcu (rc ra : RegNum) (b : SrcB)
  /-- ADDC, 40_integer_addsub R204. -/
  | addc (rc ra : RegNum) (b : SrcB)
  /-- STORE, 45_data_movement R335. -/
  | store (cntl : BitVec 8) (ra : RegNum) (b : SrcB)
  /-- SUBS, 40_integer_addsub R213. -/
  | subs (rc ra : RegNum) (b : SrcB)
  /-- SUBU, 40_integer_addsub R214. -/
  | subu (rc ra : RegNum) (b : SrcB)
  /-- SUB, 40_integer_addsub R209. -/
  | sub (rc ra : RegNum) (b : SrcB)
  /-- LOADSET, 45_data_movement R337. -/
  | loadset (cntl : BitVec 8) (ra : RegNum) (b : SrcB)
  /-- SUBCS, 40_integer_addsub R211. -/
  | subcs (rc ra : RegNum) (b : SrcB)
  /-- SUBCU, 40_integer_addsub R212. -/
  | subcu (rc ra : RegNum) (b : SrcB)
  /-- SUBC, 40_integer_addsub R210. -/
  | subc (rc ra : RegNum) (b : SrcB)
  /-- CPBYTE, 42_compare R271. -/
  | cpbyte (rc ra : RegNum) (b : SrcB)
  /-- SUBRS, 40_integer_addsub R219. -/
  | subrs (rc ra : RegNum) (b : SrcB)
  /-- SUBRU, 40_integer_addsub R220. -/
  | subru (rc ra : RegNum) (b : SrcB)
  /-- SUBR, 40_integer_addsub R215. -/
  | subr (rc ra : RegNum) (b : SrcB)
  /-- LOADM, 45_data_movement R340. -/
  | loadm (cntl : BitVec 8) (ra : RegNum) (b : SrcB)
  /-- SUBRCS, 40_integer_addsub R217. -/
  | subrcs (rc ra : RegNum) (b : SrcB)
  /-- SUBRCU, 40_integer_addsub R218. -/
  | subrcu (rc ra : RegNum) (b : SrcB)
  /-- SUBRC, 40_integer_addsub R216. -/
  | subrc (rc ra : RegNum) (b : SrcB)
  /-- STOREM, 45_data_movement R341. -/
  | storem (cntl : BitVec 8) (ra : RegNum) (b : SrcB)
  /-- CPLT, 42_compare R263. -/
  | cplt (rc ra : RegNum) (b : SrcB)
  /-- CPLTU, 42_compare R264. -/
  | cpltu (rc ra : RegNum) (b : SrcB)
  /-- CPLE, 42_compare R265. -/
  | cple (rc ra : RegNum) (b : SrcB)
  /-- CPLEU, 42_compare R266. -/
  | cpleu (rc ra : RegNum) (b : SrcB)
  /-- CPGT, 42_compare R267. -/
  | cpgt (rc ra : RegNum) (b : SrcB)
  /-- CPGTU, 42_compare R268. -/
  | cpgtu (rc ra : RegNum) (b : SrcB)
  /-- CPGE, 42_compare R269. -/
  | cpge (rc ra : RegNum) (b : SrcB)
  /-- CPGEU, 42_compare R270. -/
  | cpgeu (rc ra : RegNum) (b : SrcB)
  /-- ASLT, 42_compare R278. -/
  | aslt (vn : VecNum) (ra : RegNum) (b : SrcB)
  /-- ASLTU, 42_compare R279. -/
  | asltu (vn : VecNum) (ra : RegNum) (b : SrcB)
  /-- ASLE, 42_compare R280. -/
  | asle (vn : VecNum) (ra : RegNum) (b : SrcB)
  /-- ASLEU, 42_compare R281. -/
  | asleu (vn : VecNum) (ra : RegNum) (b : SrcB)
  /-- ASGT, 42_compare R282. -/
  | asgt (vn : VecNum) (ra : RegNum) (b : SrcB)
  /-- ASGTU, 42_compare R283. -/
  | asgtu (vn : VecNum) (ra : RegNum) (b : SrcB)
  /-- ASGE, 42_compare R284. -/
  | asge (vn : VecNum) (ra : RegNum) (b : SrcB)
  /-- ASGEU, 42_compare R285. -/
  | asgeu (vn : VecNum) (ra : RegNum) (b : SrcB)
  /-- CPEQ, 42_compare R261. -/
  | cpeq (rc ra : RegNum) (b : SrcB)
  /-- CPNEQ, 42_compare R262. -/
  | cpneq (rc ra : RegNum) (b : SrcB)
  /-- MUL, 41_integer_muldiv R231. -/
  | mul (rc ra : RegNum) (b : SrcB)
  /-- MULL, 41_integer_muldiv R232. -/
  | mull (rc ra : RegNum) (b : SrcB)
  /-- DIV0, 41_integer_muldiv R234. -/
  | div0 (rc : RegNum) (b : SrcB)
  /-- DIV, 41_integer_muldiv R235. -/
  | div (rc ra : RegNum) (b : SrcB)
  /-- DIVL, 41_integer_muldiv R236. -/
  | divl (rc ra : RegNum) (b : SrcB)
  /-- DIVREM, 41_integer_muldiv R237. -/
  | divrem (rc ra : RegNum) (b : SrcB)
  /-- ASEQ, 42_compare R276. -/
  | aseq (vn : VecNum) (ra : RegNum) (b : SrcB)
  /-- ASNEQ, 42_compare R277. -/
  | asneq (vn : VecNum) (ra : RegNum) (b : SrcB)
  /-- MULU, 41_integer_muldiv R233. -/
  | mulu (rc ra : RegNum) (b : SrcB)
  /-- INHW, 45_data_movement R346. -/
  | inhw (rc ra : RegNum) (b : SrcB)
  /-- EXTRACT, 44_shift R320. -/
  | extract (rc ra : RegNum) (b : SrcB)
  /-- EXHW, 45_data_movement R343. -/
  | exhw (rc ra : RegNum) (b : SrcB)
  /-- EXHWS, 45_data_movement R344. -/
  | exhws (rc ra : RegNum)
  /-- SLL, 44_shift R317. -/
  | sll (rc ra : RegNum) (b : SrcB)
  /-- SRL, 44_shift R318. -/
  | srl (rc ra : RegNum) (b : SrcB)
  /-- SRA, 44_shift R319. -/
  | sra (rc ra : RegNum) (b : SrcB)
  /-- IRET, 49_miscellaneous R447. -/
  | iret
  /-- HALT, 49_miscellaneous R449. -/
  | halt
  /-- IRETINV, 49_miscellaneous R448. -/
  | iretinv
  /-- AND, 43_logical R301. -/
  | and (rc ra : RegNum) (b : SrcB)
  /-- OR, 43_logical R305. -/
  | or (rc ra : RegNum) (b : SrcB)
  /-- XOR, 43_logical R307. -/
  | xor (rc ra : RegNum) (b : SrcB)
  /-- XNOR, 43_logical R306. -/
  | xnor (rc ra : RegNum) (b : SrcB)
  /-- NOR, 43_logical R304. -/
  | nor (rc ra : RegNum) (b : SrcB)
  /-- NAND, 43_logical R303. -/
  | nand (rc ra : RegNum) (b : SrcB)
  /-- ANDN, 43_logical R302. -/
  | andn (rc ra : RegNum) (b : SrcB)
  /-- SETIP, 49_miscellaneous R442. -/
  | setip (rc ra rb : RegNum)
  /-- INV, 49_miscellaneous R444. -/
  | inv
  /-- JMP, 48_branch R425. -/
  | jmp (abs : Bool) (disp : BitVec 16)
  /-- JMPF, 48_branch R429. -/
  | jmpf (abs : Bool) (ra : RegNum) (disp : BitVec 16)
  /-- CALL, 48_branch R423. -/
  | call (abs : Bool) (ra : RegNum) (disp : BitVec 16)
  /-- JMPT, 48_branch R427. -/
  | jmpt (abs : Bool) (ra : RegNum) (disp : BitVec 16)
  /-- JMPFDEC, 48_branch R431. -/
  | jmpfdec (abs : Bool) (ra : RegNum) (disp : BitVec 16)
  /-- MFTLB, 45_data_movement R350. -/
  | mftlb (rc ra : RegNum)
  /-- MTTLB, 45_data_movement R351. -/
  | mttlb (ra rb : RegNum)
  /-- JMPI, 48_branch R426. -/
  | jmpi (rb : RegNum)
  /-- JMPFI, 48_branch R430. -/
  | jmpfi (ra rb : RegNum)
  /-- MFSR, 45_data_movement R347. -/
  | mfsr (rc : RegNum) (sa : SprNum)
  /-- CALLI, 48_branch R424. -/
  | calli (ra rb : RegNum)
  /-- JMPTI, 48_branch R428. -/
  | jmpti (ra rb : RegNum)
  /-- MTSR, 45_data_movement R348. -/
  | mtsr (sa : SprNum) (rb : RegNum)
  /-- EMULATE, 49_miscellaneous R443. -/
  | emulate (vn : VecNum) (ra rb : RegNum)
  /-- MULTM, 41_integer_muldiv R243. -/
  | multm (rc ra rb : RegNum)
  /-- MULTMU, 41_integer_muldiv R244. -/
  | multmu (rc ra rb : RegNum)
  /-- MULTIPLY, 41_integer_muldiv R241. -/
  | multiply (rc ra rb : RegNum)
  /-- DIVIDE, 41_integer_muldiv R245. -/
  | divide (rc ra rb : RegNum)
  /-- MULTIPLU, 41_integer_muldiv R242. -/
  | multiplu (rc ra rb : RegNum)
  /-- DIVIDU, 41_integer_muldiv R246. -/
  | dividu (rc ra rb : RegNum)
  /-- CONVERT, 47_floating_point R400. -/
  | convert (rc ra : RegNum) (ui : BitVec 1) (rnd : BitVec 3) (fd fs : BitVec 2)
  /-- SQRT, 47_floating_point R401. -/
  | sqrt (rc ra : RegNum) (ctl : BitVec 8)
  /-- CLASS, 47_floating_point R402. -/
  | cls (rc ra : RegNum) (ctl : BitVec 8)
  /-- FEQ, 47_floating_point R394. -/
  | feq (rc ra rb : RegNum)
  /-- DEQ, 47_floating_point R395. -/
  | deq (rc ra rb : RegNum)
  /-- FGT, 47_floating_point R396. -/
  | fgt (rc ra rb : RegNum)
  /-- DGT, 47_floating_point R397. -/
  | dgt (rc ra rb : RegNum)
  /-- FGE, 47_floating_point R398. -/
  | fge (rc ra rb : RegNum)
  /-- DGE, 47_floating_point R399. -/
  | dge (rc ra rb : RegNum)
  /-- FADD, 47_floating_point R385. -/
  | fadd (rc ra rb : RegNum)
  /-- DADD, 47_floating_point R386. -/
  | dadd (rc ra rb : RegNum)
  /-- FSUB, 47_floating_point R387. -/
  | fsub (rc ra rb : RegNum)
  /-- DSUB, 47_floating_point R388. -/
  | dsub (rc ra rb : RegNum)
  /-- FMUL, 47_floating_point R389. -/
  | fmul (rc ra rb : RegNum)
  /-- DMUL, 47_floating_point R390. -/
  | dmul (rc ra rb : RegNum)
  /-- FDIV, 47_floating_point R391. -/
  | fdiv (rc ra rb : RegNum)
  /-- DDIV, 47_floating_point R392. -/
  | ddiv (rc ra rb : RegNum)
  /-- FDMUL, 47_floating_point R393. -/
  | fdmul (rc ra rb : RegNum)
  deriving DecidableEq, Repr

end Sys2Proof
end

