-- ==== Sys2Proof/WellFormed.lean ====
section
/-! DEFINITION. Which terms of `Instr` the spec gives a meaning as written: reserved bits zero, reserved codes absent.
Decoding accepts the others too (30 R173: reserved bits have no effect); a meaning says what they do. -/

namespace Sys2Proof

/-- CNTL of a load or store: bits 23-21 and 19 are zero (30 R169) and OPT is one of the four defined codes
(20 R108). -/
def wfCntl (cntl : BitVec 8) : Bool :=
  cntl &&& 0xE8#8 == 0#8 && [0#3, 1#3, 2#3, 6#3].contains (cntl.extractLsb' 0 3)

/-- CNTL of LOADM and STOREM: only word accesses are defined (20 R108). -/
def wfMultiple (cntl : BitVec 8) : Bool :=
  cntl &&& 0xEF#8 == 0#8

/-- CONVERT control fields (47 R400, 93 U36): RND codes 0-4, FS and FD of a defined format, FS different from FD. -/
def wfConvert (rnd : BitVec 3) (fd fs : BitVec 2) : Bool :=
  decide (rnd.toNat ≤ 4) && fd != 3#2 && fs != 3#2 && fs != fd

/-- Control byte of CLASS and SQRT: bits 7-2 reserved (30 R170), FS names single or double (47 R401, R402). -/
def wfFormat (ctl : BitVec 8) : Bool :=
  ctl == 1#8 || ctl == 2#8

/-- The instructions whose every field holds a code the spec defines. -/
def Instr.wellFormed : Instr → Bool
  | .constn _ _ => true
  | .consth _ _ => true
  | .const _ _ => true
  | .mtsrim _ _ => true
  | .loadl cntl _ _ => wfCntl cntl
  | .clz _ _ => true
  | .exbyte _ _ _ => true
  | .inbyte _ _ _ => true
  | .storel cntl _ _ => wfCntl cntl
  | .adds _ _ _ => true
  | .addu _ _ _ => true
  | .add _ _ _ => true
  | .load cntl _ _ => wfCntl cntl
  | .addcs _ _ _ => true
  | .addcu _ _ _ => true
  | .addc _ _ _ => true
  | .store cntl _ _ => wfCntl cntl
  | .subs _ _ _ => true
  | .subu _ _ _ => true
  | .sub _ _ _ => true
  | .loadset cntl _ _ => wfCntl cntl
  | .subcs _ _ _ => true
  | .subcu _ _ _ => true
  | .subc _ _ _ => true
  | .cpbyte _ _ _ => true
  | .subrs _ _ _ => true
  | .subru _ _ _ => true
  | .subr _ _ _ => true
  | .loadm cntl _ _ => wfMultiple cntl
  | .subrcs _ _ _ => true
  | .subrcu _ _ _ => true
  | .subrc _ _ _ => true
  | .storem cntl _ _ => wfMultiple cntl
  | .cplt _ _ _ => true
  | .cpltu _ _ _ => true
  | .cple _ _ _ => true
  | .cpleu _ _ _ => true
  | .cpgt _ _ _ => true
  | .cpgtu _ _ _ => true
  | .cpge _ _ _ => true
  | .cpgeu _ _ _ => true
  | .aslt _ _ _ => true
  | .asltu _ _ _ => true
  | .asle _ _ _ => true
  | .asleu _ _ _ => true
  | .asgt _ _ _ => true
  | .asgtu _ _ _ => true
  | .asge _ _ _ => true
  | .asgeu _ _ _ => true
  | .cpeq _ _ _ => true
  | .cpneq _ _ _ => true
  | .mul _ _ _ => true
  | .mull _ _ _ => true
  | .div0 _ _ => true
  | .div _ _ _ => true
  | .divl _ _ _ => true
  | .divrem _ _ _ => true
  | .aseq _ _ _ => true
  | .asneq _ _ _ => true
  | .mulu _ _ _ => true
  | .inhw _ _ _ => true
  | .extract _ _ _ => true
  | .exhw _ _ _ => true
  | .exhws _ _ => true
  | .sll _ _ _ => true
  | .srl _ _ _ => true
  | .sra _ _ _ => true
  | .iret => true
  | .halt => true
  | .iretinv => true
  | .and _ _ _ => true
  | .or _ _ _ => true
  | .xor _ _ _ => true
  | .xnor _ _ _ => true
  | .nor _ _ _ => true
  | .nand _ _ _ => true
  | .andn _ _ _ => true
  | .setip _ _ _ => true
  | .inv => true
  | .jmp _ _ => true
  | .jmpf _ _ _ => true
  | .call _ _ _ => true
  | .jmpt _ _ _ => true
  | .jmpfdec _ _ _ => true
  | .mftlb _ _ => true
  | .mttlb _ _ => true
  | .jmpi _ => true
  | .jmpfi _ _ => true
  | .mfsr _ _ => true
  | .calli _ _ => true
  | .jmpti _ _ => true
  | .mtsr _ _ => true
  | .emulate _ _ _ => true
  | .multm _ _ _ => true
  | .multmu _ _ _ => true
  | .multiply _ _ _ => true
  | .divide _ _ _ => true
  | .multiplu _ _ _ => true
  | .dividu _ _ _ => true
  | .convert _ _ _ rnd fd fs => wfConvert rnd fd fs
  | .sqrt _ _ ctl => wfFormat ctl
  | .cls _ _ ctl => wfFormat ctl
  | .feq _ _ _ => true
  | .deq _ _ _ => true
  | .fgt _ _ _ => true
  | .dgt _ _ _ => true
  | .fge _ _ _ => true
  | .dge _ _ _ => true
  | .fadd _ _ _ => true
  | .dadd _ _ _ => true
  | .fsub _ _ _ => true
  | .dsub _ _ _ => true
  | .fmul _ _ _ => true
  | .dmul _ _ _ => true
  | .fdiv _ _ _ => true
  | .ddiv _ _ _ => true
  | .fdmul _ _ _ => true

end Sys2Proof
end

