-- ==== Sys2Proof/Decode.lean ====
section
/-! DEFINITION. Decoding of an instruction word by its OP byte (30 R160-R182), total on every word, and the encoder
written from the same formats. -/

namespace Sys2Proof

/-! ### Fields (30 R161) -/

/-- Bits 31-24, the operation code. -/
def opField (w : Word) : BitVec 8 := w.extractLsb' 24 8
/-- Bits 23-16. -/
def fieldC (w : Word) : BitVec 8 := w.extractLsb' 16 8
/-- Bits 15-8. -/
def fieldA (w : Word) : BitVec 8 := w.extractLsb' 8 8
/-- Bits 7-0. -/
def fieldB (w : Word) : BitVec 8 := w.extractLsb' 0 8
/-- Bit 24, called M or A (30 R162). -/
def mBit (w : Word) : Bool := w.getLsbD 24
/-- I17..I10 // I9..I2 or I15..I8 // I7..I0 (30 R166, R172). -/
def field16 (w : Word) : BitVec 16 := fieldC w ++ fieldB w
/-- "RB or I" under the M bit (30 R163). -/
def srcField (w : Word) : SrcB := if mBit w then .imm (fieldB w) else .reg (fieldB w)

/-- What a word is: an instruction of the table, an operation code reserved for emulation with its three register
fields (30 R181), or an unassigned operation code (30 R182). -/
inductive Decoded where
  | instr (i : Instr)
  | emulation (op : BitVec 8) (rc ra rb : RegNum)
  | illegal (op : BitVec 8)
  deriving DecidableEq, Repr

/-- One row of the opcode index: the operation code, whether the odd code next to it belongs to the row too (M or A
bit), and how the fields are read. -/
structure OpRow where
  code : Nat
  pair : Bool
  read : Word → Instr

/-- A format that ends in "RB or I" (30 R164, R168-R170). -/
def rowSrc (code : Nat) (k : RegNum → RegNum → SrcB → Instr) : OpRow :=
  ⟨code, true, fun w => k (fieldC w) (fieldA w) (srcField w)⟩

/-- A format of three plain bytes (30 R165, R170). -/
def rowPlain (code : Nat) (k : BitVec 8 → BitVec 8 → BitVec 8 → Instr) : OpRow :=
  ⟨code, false, fun w => k (fieldC w) (fieldA w) (fieldB w)⟩

/-- A format with a 16-bit constant (30 R166). -/
def row16 (code : Nat) (k : BitVec 8 → BitVec 16 → Instr) : OpRow :=
  ⟨code, false, fun w => k (fieldA w) (field16 w)⟩

/-- The JA format (30 R167). -/
def rowJump (code : Nat) (k : Bool → RegNum → BitVec 16 → Instr) : OpRow :=
  ⟨code, true, fun w => k (mBit w) (fieldA w) (field16 w)⟩

/-- Rows of the opcode index (30 R180), part 1. -/
def opRows0 : List OpRow := [
    row16 0x01 .constn,
    row16 0x02 .consth,
    row16 0x03 .const,
    row16 0x04 .mtsrim,
    rowSrc 0x06 .loadl,
    rowSrc 0x08 (fun rc _ b => .clz rc b),
    rowSrc 0x0A .exbyte,
    rowSrc 0x0C .inbyte,
    rowSrc 0x0E .storel,
    rowSrc 0x10 .adds,
    rowSrc 0x12 .addu,
    rowSrc 0x14 .add,
    rowSrc 0x16 .load,
    rowSrc 0x18 .addcs,
    rowSrc 0x1A .addcu,
    rowSrc 0x1C .addc,
    rowSrc 0x1E .store,
    rowSrc 0x20 .subs,
    rowSrc 0x22 .subu,
    rowSrc 0x24 .sub,
    rowSrc 0x26 .loadset,
    rowSrc 0x28 .subcs,
    rowSrc 0x2A .subcu,
    rowSrc 0x2C .subc,
    rowSrc 0x2E .cpbyte,
    rowSrc 0x30 .subrs,
    rowSrc 0x32 .subru,
    rowSrc 0x34 .subr,
    rowSrc 0x36 .loadm,
    rowSrc 0x38 .subrcs]

/-- Rows of the opcode index (30 R180), part 2. -/
def opRows1 : List OpRow := [
    rowSrc 0x3A .subrcu,
    rowSrc 0x3C .subrc,
    rowSrc 0x3E .storem,
    rowSrc 0x40 .cplt,
    rowSrc 0x42 .cpltu,
    rowSrc 0x44 .cple,
    rowSrc 0x46 .cpleu,
    rowSrc 0x48 .cpgt,
    rowSrc 0x4A .cpgtu,
    rowSrc 0x4C .cpge,
    rowSrc 0x4E .cpgeu,
    rowSrc 0x50 .aslt,
    rowSrc 0x52 .asltu,
    rowSrc 0x54 .asle,
    rowSrc 0x56 .asleu,
    rowSrc 0x58 .asgt,
    rowSrc 0x5A .asgtu,
    rowSrc 0x5C .asge,
    rowSrc 0x5E .asgeu,
    rowSrc 0x60 .cpeq,
    rowSrc 0x62 .cpneq,
    rowSrc 0x64 .mul,
    rowSrc 0x66 .mull,
    rowSrc 0x68 (fun rc _ b => .div0 rc b),
    rowSrc 0x6A .div,
    rowSrc 0x6C .divl,
    rowSrc 0x6E .divrem,
    rowSrc 0x70 .aseq,
    rowSrc 0x72 .asneq,
    rowSrc 0x74 .mulu]

/-- Rows of the opcode index (30 R180), part 3. -/
def opRows2 : List OpRow := [
    rowSrc 0x78 .inhw,
    rowSrc 0x7A .extract,
    rowSrc 0x7C .exhw,
    rowPlain 0x7E (fun rc ra _ => .exhws rc ra),
    rowSrc 0x80 .sll,
    rowSrc 0x82 .srl,
    rowSrc 0x86 .sra,
    rowPlain 0x88 (fun _ _ _ => .iret),
    rowPlain 0x89 (fun _ _ _ => .halt),
    rowPlain 0x8C (fun _ _ _ => .iretinv),
    rowSrc 0x90 .and,
    rowSrc 0x92 .or,
    rowSrc 0x94 .xor,
    rowSrc 0x96 .xnor,
    rowSrc 0x98 .nor,
    rowSrc 0x9A .nand,
    rowSrc 0x9C .andn,
    rowPlain 0x9E .setip,
    rowPlain 0x9F (fun _ _ _ => .inv),
    rowJump 0xA0 (fun a _ d => .jmp a d),
    rowJump 0xA4 .jmpf,
    rowJump 0xA8 .call,
    rowJump 0xAC .jmpt,
    rowJump 0xB4 .jmpfdec,
    rowPlain 0xB6 (fun rc ra _ => .mftlb rc ra),
    rowPlain 0xBE (fun _ ra rb => .mttlb ra rb),
    rowPlain 0xC0 (fun _ _ rb => .jmpi rb),
    rowPlain 0xC4 (fun _ ra rb => .jmpfi ra rb),
    rowPlain 0xC6 (fun rc sa _ => .mfsr rc sa),
    rowPlain 0xC8 (fun _ ra rb => .calli ra rb)]

/-- Rows of the opcode index (30 R180), part 4. -/
def opRows3 : List OpRow := [
    rowPlain 0xCC (fun _ ra rb => .jmpti ra rb),
    rowPlain 0xCE (fun _ sa rb => .mtsr sa rb),
    rowPlain 0xD7 .emulate,
    rowPlain 0xDE .multm,
    rowPlain 0xDF .multmu,
    rowPlain 0xE0 .multiply,
    rowPlain 0xE1 .divide,
    rowPlain 0xE2 .multiplu,
    rowPlain 0xE3 .dividu,
    rowPlain 0xE4 (fun rc ra f =>
      .convert rc ra (f.extractLsb' 7 1) (f.extractLsb' 4 3) (f.extractLsb' 2 2) (f.extractLsb' 0 2)),
    rowPlain 0xE5 .sqrt,
    rowPlain 0xE6 .cls,
    rowPlain 0xEA .feq,
    rowPlain 0xEB .deq,
    rowPlain 0xEC .fgt,
    rowPlain 0xED .dgt,
    rowPlain 0xEE .fge,
    rowPlain 0xEF .dge,
    rowPlain 0xF0 .fadd,
    rowPlain 0xF1 .dadd,
    rowPlain 0xF2 .fsub,
    rowPlain 0xF3 .dsub,
    rowPlain 0xF4 .fmul,
    rowPlain 0xF5 .dmul,
    rowPlain 0xF6 .fdiv,
    rowPlain 0xF7 .ddiv,
    rowPlain 0xF9 .fdmul]

/-- The opcode index (30 R180). -/
def opRows : List OpRow := opRows0 ++ opRows1 ++ opRows2 ++ opRows3

/-- Whether an operation code belongs to a row. -/
def OpRow.owns (r : OpRow) (op : Nat) : Bool :=
  if r.pair then r.code / 2 == op / 2 else r.code == op

/-- The row that owns an operation code. -/
def findRow : List OpRow → Nat → Option OpRow
  | [], _ => none
  | r :: rs, op => if r.owns op then some r else findRow rs op

/-- The operation codes reserved for emulation (30 R181). -/
def isEmulationOp (op : Nat) : Bool :=
  (0xD8 ≤ op && op ≤ 0xDD) || (0xE7 ≤ op && op ≤ 0xE9) || op == 0xF8 || 0xFA ≤ op

/-- Decoding by the OP byte alone (30 R180). -/
def decode (w : Word) : Decoded :=
  match findRow opRows (opField w).toNat with
  | some r => .instr (r.read w)
  | none =>
    if isEmulationOp (opField w).toNat then .emulation (opField w) (fieldC w) (fieldA w) (fieldB w)
    else .illegal (opField w)

/-- The word held by four bytes, the first at the lowest address (20 R101, R102). -/
def wordOfBytes (b0 b1 b2 b3 : Byte) : Word := b0 ++ b1 ++ b2 ++ b3

/-- Byte k of a word in big-endian order (20 R101). -/
def byteOfWord (w : Word) (k : Nat) : Byte := w.extractLsb' (24 - 8 * k) 8

/-- The instruction held by four bytes of memory, if the word is one of the table. -/
def decodeBytes (b0 b1 b2 b3 : Byte) : Option Instr :=
  match decode (wordOfBytes b0 b1 b2 b3) with
  | .instr i => some i
  | _ => none

/-- A table word of `nbits` bits, the bits above them zero. -/
def tableWord (nbits w : Nat) : Word := BitVec.ofNat 32 (w % 2 ^ nbits)

/-- The instruction the decoder reads from an opcode-table word: the word is laid out big-endian, as memory holds it,
and its bytes are decoded. -/
def decodeTableWord (nbits w : Nat) : Option Instr :=
  let v := tableWord nbits w
  decodeBytes (byteOfWord v 0) (byteOfWord v 1) (byteOfWord v 2) (byteOfWord v 3)

/-! ### Encoding -/

/-- A word from its four fields (30 R161). -/
def pack (op c a b : BitVec 8) : Word := op ++ c ++ a ++ b

/-- The M bit of an operand (30 R162). -/
def SrcB.m : SrcB → BitVec 8
  | .reg _ => 0
  | .imm _ => 1

/-- The third byte of an operand. -/
def SrcB.byte : SrcB → BitVec 8
  | .reg r => r
  | .imm i => i

/-- The A bit (30 R162). -/
def aBit (a : Bool) : BitVec 8 := if a then 1 else 0

/-- High byte of a 16-bit constant. -/
def hi8 (v : BitVec 16) : BitVec 8 := v.extractLsb' 8 8
/-- Low byte of a 16-bit constant. -/
def lo8 (v : BitVec 16) : BitVec 8 := v.extractLsb' 0 8

/-- The CONVERT control byte UI // RND // FD // FS (30 R163). -/
def convertByte (ui : BitVec 1) (rnd : BitVec 3) (fd fs : BitVec 2) : BitVec 8 := ui ++ rnd ++ fd ++ fs

/-- The word of an instruction, reserved fields zero (30 R164-R173). -/
def encode : Instr → Word
  | .constn ra imm => pack 0x01#8 (hi8 imm) ra (lo8 imm)
  | .consth ra imm => pack 0x02#8 (hi8 imm) ra (lo8 imm)
  | .const ra imm => pack 0x03#8 (hi8 imm) ra (lo8 imm)
  | .mtsrim sa imm => pack 0x04#8 (hi8 imm) sa (lo8 imm)
  | .loadl cntl ra b => pack (0x06#8 ||| b.m) cntl ra b.byte
  | .clz rc b => pack (0x08#8 ||| b.m) rc 0 b.byte
  | .exbyte rc ra b => pack (0x0A#8 ||| b.m) rc ra b.byte
  | .inbyte rc ra b => pack (0x0C#8 ||| b.m) rc ra b.byte
  | .storel cntl ra b => pack (0x0E#8 ||| b.m) cntl ra b.byte
  | .adds rc ra b => pack (0x10#8 ||| b.m) rc ra b.byte
  | .addu rc ra b => pack (0x12#8 ||| b.m) rc ra b.byte
  | .add rc ra b => pack (0x14#8 ||| b.m) rc ra b.byte
  | .load cntl ra b => pack (0x16#8 ||| b.m) cntl ra b.byte
  | .addcs rc ra b => pack (0x18#8 ||| b.m) rc ra b.byte
  | .addcu rc ra b => pack (0x1A#8 ||| b.m) rc ra b.byte
  | .addc rc ra b => pack (0x1C#8 ||| b.m) rc ra b.byte
  | .store cntl ra b => pack (0x1E#8 ||| b.m) cntl ra b.byte
  | .subs rc ra b => pack (0x20#8 ||| b.m) rc ra b.byte
  | .subu rc ra b => pack (0x22#8 ||| b.m) rc ra b.byte
  | .sub rc ra b => pack (0x24#8 ||| b.m) rc ra b.byte
  | .loadset cntl ra b => pack (0x26#8 ||| b.m) cntl ra b.byte
  | .subcs rc ra b => pack (0x28#8 ||| b.m) rc ra b.byte
  | .subcu rc ra b => pack (0x2A#8 ||| b.m) rc ra b.byte
  | .subc rc ra b => pack (0x2C#8 ||| b.m) rc ra b.byte
  | .cpbyte rc ra b => pack (0x2E#8 ||| b.m) rc ra b.byte
  | .subrs rc ra b => pack (0x30#8 ||| b.m) rc ra b.byte
  | .subru rc ra b => pack (0x32#8 ||| b.m) rc ra b.byte
  | .subr rc ra b => pack (0x34#8 ||| b.m) rc ra b.byte
  | .loadm cntl ra b => pack (0x36#8 ||| b.m) cntl ra b.byte
  | .subrcs rc ra b => pack (0x38#8 ||| b.m) rc ra b.byte
  | .subrcu rc ra b => pack (0x3A#8 ||| b.m) rc ra b.byte
  | .subrc rc ra b => pack (0x3C#8 ||| b.m) rc ra b.byte
  | .storem cntl ra b => pack (0x3E#8 ||| b.m) cntl ra b.byte
  | .cplt rc ra b => pack (0x40#8 ||| b.m) rc ra b.byte
  | .cpltu rc ra b => pack (0x42#8 ||| b.m) rc ra b.byte
  | .cple rc ra b => pack (0x44#8 ||| b.m) rc ra b.byte
  | .cpleu rc ra b => pack (0x46#8 ||| b.m) rc ra b.byte
  | .cpgt rc ra b => pack (0x48#8 ||| b.m) rc ra b.byte
  | .cpgtu rc ra b => pack (0x4A#8 ||| b.m) rc ra b.byte
  | .cpge rc ra b => pack (0x4C#8 ||| b.m) rc ra b.byte
  | .cpgeu rc ra b => pack (0x4E#8 ||| b.m) rc ra b.byte
  | .aslt vn ra b => pack (0x50#8 ||| b.m) vn ra b.byte
  | .asltu vn ra b => pack (0x52#8 ||| b.m) vn ra b.byte
  | .asle vn ra b => pack (0x54#8 ||| b.m) vn ra b.byte
  | .asleu vn ra b => pack (0x56#8 ||| b.m) vn ra b.byte
  | .asgt vn ra b => pack (0x58#8 ||| b.m) vn ra b.byte
  | .asgtu vn ra b => pack (0x5A#8 ||| b.m) vn ra b.byte
  | .asge vn ra b => pack (0x5C#8 ||| b.m) vn ra b.byte
  | .asgeu vn ra b => pack (0x5E#8 ||| b.m) vn ra b.byte
  | .cpeq rc ra b => pack (0x60#8 ||| b.m) rc ra b.byte
  | .cpneq rc ra b => pack (0x62#8 ||| b.m) rc ra b.byte
  | .mul rc ra b => pack (0x64#8 ||| b.m) rc ra b.byte
  | .mull rc ra b => pack (0x66#8 ||| b.m) rc ra b.byte
  | .div0 rc b => pack (0x68#8 ||| b.m) rc 0 b.byte
  | .div rc ra b => pack (0x6A#8 ||| b.m) rc ra b.byte
  | .divl rc ra b => pack (0x6C#8 ||| b.m) rc ra b.byte
  | .divrem rc ra b => pack (0x6E#8 ||| b.m) rc ra b.byte
  | .aseq vn ra b => pack (0x70#8 ||| b.m) vn ra b.byte
  | .asneq vn ra b => pack (0x72#8 ||| b.m) vn ra b.byte
  | .mulu rc ra b => pack (0x74#8 ||| b.m) rc ra b.byte
  | .inhw rc ra b => pack (0x78#8 ||| b.m) rc ra b.byte
  | .extract rc ra b => pack (0x7A#8 ||| b.m) rc ra b.byte
  | .exhw rc ra b => pack (0x7C#8 ||| b.m) rc ra b.byte
  | .exhws rc ra => pack 0x7E#8 rc ra 0
  | .sll rc ra b => pack (0x80#8 ||| b.m) rc ra b.byte
  | .srl rc ra b => pack (0x82#8 ||| b.m) rc ra b.byte
  | .sra rc ra b => pack (0x86#8 ||| b.m) rc ra b.byte
  | .iret => pack 0x88#8 0 0 0
  | .halt => pack 0x89#8 0 0 0
  | .iretinv => pack 0x8C#8 0 0 0
  | .and rc ra b => pack (0x90#8 ||| b.m) rc ra b.byte
  | .or rc ra b => pack (0x92#8 ||| b.m) rc ra b.byte
  | .xor rc ra b => pack (0x94#8 ||| b.m) rc ra b.byte
  | .xnor rc ra b => pack (0x96#8 ||| b.m) rc ra b.byte
  | .nor rc ra b => pack (0x98#8 ||| b.m) rc ra b.byte
  | .nand rc ra b => pack (0x9A#8 ||| b.m) rc ra b.byte
  | .andn rc ra b => pack (0x9C#8 ||| b.m) rc ra b.byte
  | .setip rc ra rb => pack 0x9E#8 rc ra rb
  | .inv => pack 0x9F#8 0 0 0
  | .jmp a d => pack (0xA0#8 ||| aBit a) (hi8 d) 0 (lo8 d)
  | .jmpf a ra d => pack (0xA4#8 ||| aBit a) (hi8 d) ra (lo8 d)
  | .call a ra d => pack (0xA8#8 ||| aBit a) (hi8 d) ra (lo8 d)
  | .jmpt a ra d => pack (0xAC#8 ||| aBit a) (hi8 d) ra (lo8 d)
  | .jmpfdec a ra d => pack (0xB4#8 ||| aBit a) (hi8 d) ra (lo8 d)
  | .mftlb rc ra => pack 0xB6#8 rc ra 0
  | .mttlb ra rb => pack 0xBE#8 0 ra rb
  | .jmpi rb => pack 0xC0#8 0 0 rb
  | .jmpfi ra rb => pack 0xC4#8 0 ra rb
  | .mfsr rc sa => pack 0xC6#8 rc sa 0
  | .calli ra rb => pack 0xC8#8 0 ra rb
  | .jmpti ra rb => pack 0xCC#8 0 ra rb
  | .mtsr sa rb => pack 0xCE#8 0 sa rb
  | .emulate vn ra rb => pack 0xD7#8 vn ra rb
  | .multm rc ra rb => pack 0xDE#8 rc ra rb
  | .multmu rc ra rb => pack 0xDF#8 rc ra rb
  | .multiply rc ra rb => pack 0xE0#8 rc ra rb
  | .divide rc ra rb => pack 0xE1#8 rc ra rb
  | .multiplu rc ra rb => pack 0xE2#8 rc ra rb
  | .dividu rc ra rb => pack 0xE3#8 rc ra rb
  | .convert rc ra ui rnd fd fs => pack 0xE4#8 rc ra (convertByte ui rnd fd fs)
  | .sqrt rc ra ctl => pack 0xE5#8 rc ra ctl
  | .cls rc ra ctl => pack 0xE6#8 rc ra ctl
  | .feq rc ra rb => pack 0xEA#8 rc ra rb
  | .deq rc ra rb => pack 0xEB#8 rc ra rb
  | .fgt rc ra rb => pack 0xEC#8 rc ra rb
  | .dgt rc ra rb => pack 0xED#8 rc ra rb
  | .fge rc ra rb => pack 0xEE#8 rc ra rb
  | .dge rc ra rb => pack 0xEF#8 rc ra rb
  | .fadd rc ra rb => pack 0xF0#8 rc ra rb
  | .dadd rc ra rb => pack 0xF1#8 rc ra rb
  | .fsub rc ra rb => pack 0xF2#8 rc ra rb
  | .dsub rc ra rb => pack 0xF3#8 rc ra rb
  | .fmul rc ra rb => pack 0xF4#8 rc ra rb
  | .dmul rc ra rb => pack 0xF5#8 rc ra rb
  | .fdiv rc ra rb => pack 0xF6#8 rc ra rb
  | .ddiv rc ra rb => pack 0xF7#8 rc ra rb
  | .fdmul rc ra rb => pack 0xF9#8 rc ra rb

end Sys2Proof
end

