-- ==== Sys2Proof/Machine/Bits.lean ====
section
/-! DEFINITION. Bit fields of a word, sign and zero extension (00 R8). -/

namespace Sys2Proof.Machine

/-- Bit k of a word. -/
def bit (w : Word) (k : Nat) : Bool := w.getLsbD k

/-- A word with bit k replaced. -/
def putBit (w : Word) (k : Nat) (b : Bool) : Word :=
  if b then w ||| (1#32 <<< k) else w &&& ~~~(1#32 <<< k)

/-- The `n` bits of a word from bit `lo` up. -/
def bits (w : Word) (lo n : Nat) : BitVec n := w.extractLsb' lo n

/-- A word with the field from bit `lo` up replaced. -/
def putBits {n : Nat} (w : Word) (lo : Nat) (v : BitVec n) : Word :=
  (w &&& ~~~((BitVec.allOnes n).setWidth 32 <<< lo)) ||| (v.setWidth 32 <<< lo)

/-- A Bool as a word, 1 or 0. -/
def ofFlag (b : Bool) : Word := if b then 1 else 0

/-- Zero extension to a word. -/
def zext {n : Nat} (v : BitVec n) : Word := v.setWidth 32

/-- Sign extension to a word. -/
def sext {n : Nat} (v : BitVec n) : Word := v.signExtend 32

/-- An address with its two low bits cleared. -/
def wordAligned (a : Word) : Word := a &&& 0xFFFFFFFC

/-- A Boolean value in a register: bit 31 (00 R10). -/
def truth (b : Bool) : Word := if b then 0x80000000 else 0

end Sys2Proof.Machine
end

