-- ==== Sys2Proof/Config.lean ====
section
/-! DEFINITION. What the part or the environment fixes and the spec leaves open: opaque constants, of which nothing
can be proved but their type. The free values are applied to the counter `State.free` (log 7). -/

namespace Sys2Proof

/-- The n-th free word: a value the spec calls unpredictable or undefined after which the machine goes on (93). -/
opaque Config.freeWord : Nat → Word

/-- The n-th free choice between two behaviours the spec allows (93 U23, U25, U26, U31). -/
opaque Config.freeBool : Nat → Bool

/-- Processor cycles of a step beyond the first (92 CYCLES, 70 R735, 60 R486). -/
opaque Config.extraCycles : Nat → Nat

/-- The processor release level CFG.PRL (10 R38, 92 P1). -/
opaque Config.prl : BitVec 8

end Sys2Proof
end

