-- ==== Sys2Proof/Machine/State.lean ====
section
/-! DEFINITION. The state of the machine as plain data: everything the spec names, the two reason types of a step that
stops, and the state after reset. INVENTORY.md lists every field with its rule and reset value. -/

namespace Sys2Proof.Machine

/-- The two parts of the manual (00 R4). -/
inductive Variant where
  | am29200
  | am29205
  deriving DecidableEq, Repr

/-- The boot ROM width strapped by BOOTW on the Am29200 (70 R703, 61 R545). -/
inductive RomStrap where
  | width32
  | width16
  | width8
  deriving DecidableEq, Repr

/-- Operational modes with state of their own (60 R461). Reset is an event, Pipeline Hold is timing, Wait is CPS.WM. -/
inductive OpMode where
  | executing
  | halt
  | step
  | loadTest
  deriving DecidableEq, Repr

/-- The shadow Stack Pointer, SPsh and SPsh_valid (10 R25). -/
structure Shadow where
  val : Word
  valid : Bool
  deriving DecidableEq, Repr

/-- What the previous instruction wrote, as far as the next one can still see the old value (70 R722, R723), and
whether it was a LOADM or STOREM (70 R725). -/
structure Recent where
  sp : Option Shadow
  ipa : Option Word
  ipb : Option Word
  ipc : Option Word
  multi : Bool
  deriving DecidableEq, Repr

/-- No hazard window open. -/
def Recent.none : Recent := ⟨Option.none, Option.none, Option.none, Option.none, false⟩

/-- Debug state of the Am29200 (62 R683-R692): the 3-bit Instruction Register of the test access port, the CNTL field
and the changes of it that wait for a multiple to end (62 R689), the processor's Instruction Register with its valid mark,
whether the status of Load Test Instruction mode is still in effect (62 R690), the HaltProtectionDisabled latch, the
ID-bus scan cells towards the chip, the word a store with OPT = 110 holds on the ID bus until the next step, the register
of an injected OPT = 110 load whose datum the next step brings, the word of such a store that the next step shows, and
whether the last injected instruction was a load (true) or a store (62 R691). -/
structure Debug where
  tap : BitVec 3
  cntl : BitVec 2
  pending : List (BitVec 2)
  ir : Word
  irValid : Bool
  forced : Bool
  haltUnprotected : Bool
  scanIn : Word
  scanOut : Option Word
  loadReg : Option AbsReg
  storeWord : Option Word
  lastAccess : Option Bool
  deriving DecidableEq, Repr

/-- The external access that may still be outstanding (10 R57, 20 R120, 70 R731): the target of a load with the value
and the shadow Stack Pointer it had before, whether the datum is still needed, the bytes a store replaced with their
place in memory. -/
structure Flight where
  load : Option (AbsReg × Word × Shadow)
  needed : Bool
  store : Option (Nat × List Byte)
  deriving DecidableEq, Repr

/-- A sequence of transfers of an instruction, or one resumed by IRET, which the event already pending then does not
interrupt (60 R490). -/
inductive Sequence where
  | fresh
  | resumed (held : Option VecNum)
  deriving DecidableEq, Repr

/-- A LOADM or STOREM that waits for the bus between two transfers (20 R131, 45 R339): its kind and control byte, how
many transfers are left, the register and the address of the next one. -/
structure Multiple where
  load : Bool
  cntl : BitVec 8
  seq : Sequence
  left : Nat
  reg : AbsReg
  addr : Word
  deriving DecidableEq, Repr

/-- Levels of the input pins. A request bit is 1 while the (active-Low) request input is asserted (60 R480); `pio` and
`dreq` are electrical levels, High = 1 (61 R571, R606); the others say "asserted" or "High" as their rules do; `hostData` is what the host drives on the parallel-port data lines (62 R643). -/
structure Pins where
  intr : BitVec 4
  trap : BitVec 2
  warn : Bool
  pio : BitVec 16
  dreq : BitVec 2
  tdma : Bool
  dtr : Bool
  pstrobe : Bool
  pautofd : Bool
  psync : Bool
  lsync : Bool
  hostData : Word
  deriving DecidableEq, Repr

/-- One DMA channel: control, address and count registers and the request latch (61 R601-R606). -/
structure DmaChannel where
  ctl : Word
  addr : Word
  cnt : Word
  latch : Bool
  deriving DecidableEq, Repr

/-- The serial port (62 R620-R627): control, status (bits 10-8 and 3-0), holding and buffer registers, baud divisor,
Transmit Shift Register with its busy flag, the levels of the frame that TXD has still to show (the first of them is
on the line; how many they are is the bit counter), the Receive Shift Register with the levels it has taken since a
start bit (none while it is idle), and the baud divider. -/
structure Serial where
  ctl : Word
  stat : Word
  thr : Byte
  rbr : Byte
  baud : Word
  tsr : Byte
  busy : Bool
  tx : List Bool
  rx : Option (List Bool)
  div : Nat
  deriving DecidableEq, Repr

/-- Phases of the parallel-port handshake (62 R644, R645). -/
inductive PPhase where
  | idle
  /-- E1 seen with BRS = 1, waiting for the trailing edge. -/
  | strobed
  /-- E2 to E4: PBUSY asserted. -/
  | busy
  /-- The ARB = 1 tail of E4: PACK asserted for one interval. -/
  | ackTail
  /-- T1: data setup interval. -/
  | setup
  /-- T2 not yet: waiting for the host to be ready. -/
  | hostWait
  /-- T2 to T3: PACK asserted. -/
  | toAck
  /-- After T3, the host has not strobed yet. -/
  | strobeWait
  /-- T5: data hold interval. -/
  | hold
  deriving DecidableEq, Repr

/-- The parallel port (62 R640-R647): PPCT (AFD excepted), the handshake phase, the TDELAY counter and whether its
interval is running, BCT, the handshakes since the last request (62 R644 E2), whether PPDT was read (or need not be) in
this transfer, whether the host strobed in this transfer, the remaining cycles of a FACK pulse, what the external latch
holds for the processor, and whether it has taken the datum of the last strobe. -/
structure Parallel where
  ctl : Word
  phase : PPhase
  tdelay : BitVec 8
  timing : Bool
  bct : BitVec 2
  sinceRequest : BitVec 2
  dataRead : Bool
  hostStrobed : Bool
  fack : BitVec 8
  latch : Word
  latched : Bool
  deriving DecidableEq, Repr

/-- The video interface (62 R660-R668): VCT (PSL excepted while PSYNC is an input), TOP, SIDE, the holding register
with its full mark, the shift register with the number of bits it still holds or has collected, the three counters,
page and line activity, whether the left margin of a line is counted, the cycles left before LSYNC is acted on, the
clock divider, the data bit on VDAT, whether that is the last one of a line, PSYNC and LSYNC as last sampled and PSYNC
as last driven (62 R661 CLKI). -/
structure Video where
  ctl : Word
  top : Word
  side : Word
  vdt : Word
  full : Bool
  shift : Word
  count : Nat
  topctr : BitVec 12
  leftctr : BitVec 12
  linectr : BitVec 16
  page : Bool
  line : Bool
  margin : Bool
  delay : Nat
  div : Nat
  dat : Bool
  ended : Bool
  psyncSeen : Bool
  lsyncSeen : Bool
  psyncOut : Bool
  deriving DecidableEq, Repr

/-- What the environment or a unit other than the core does in one move (61 R540, 62 R695). -/
inductive Move where
  /-- The input pins take new levels. -/
  | pins (p : Pins)
  /-- The PIO port samples its lines (61 R577). -/
  | pioSync
  /-- One DMA transfer of the channel with the higher priority that has a request (61 R608, 20 R131). -/
  | dma
  /-- The transmitter takes the holding register (62 R626 TxLoad). -/
  | txLoad
  /-- One period of UCLK (62 R625). -/
  | uclk
  /-- The receiver samples one bit time of RXD (62 R627). -/
  | rxBit (level : Bool)
  /-- One MEMCLK cycle of the parallel port's interval counters (62 R642). -/
  | ppTick
  /-- A transition of VCLK, Low-to-High if `rising`, with the level on VDAT (62 R661 CLKI, R665, R666). -/
  | vclk (rising vdat : Bool)
  /-- The timer counts on while the core waits for its bus (70 R730, R735). -/
  | tick
  /-- An external master reads (none) or writes one word through GREQ/GACK (61 R615). -/
  | master (addr : Word) (data : Option Word)
  /-- The debug host drives the ID-bus scan cells (62 R690, R691). -/
  | idBus (w : Word)
  /-- An instruction is scanned into the Instruction Register of the test access port (62 R683). -/
  | tapIr (code : BitVec 3)
  /-- TRST resets the test access port (62 R683). -/
  | trst
  /-- The cells that the instruction of the test access port selects are captured and read (62 R684). -/
  | tapCapture
  deriving DecidableEq, Repr

/-- An entry of the schedule. -/
inductive Event where
  /-- A core step. -/
  | core
  /-- A core step within which the WARN input becomes active (60 R468 item 4, R484). -/
  | warn
  /-- A move of another agent between core steps. -/
  | agent (m : Move)
  /-- The same between two transfers of a LOADM or STOREM. -/
  | mid (m : Move)
  /-- A change of CNTL there (62 R689). -/
  | midCntl (v : BitVec 2)
  /-- RESET there: the sequence is abandoned (70 R700). -/
  | midReset
  /-- The end of such a gap. -/
  | gap
  /-- RESET asserted and released. -/
  | reset
  /-- A change of CNTL. -/
  | cntl (v : BitVec 2)
  deriving DecidableEq, Repr

/-- What left the chip, for the devices outside (20 R122, 61 R612, 62 R626-R667, R683-R691). `bytes` is the access
width; `acs` says that the PIACSx output of the channel was asserted too (61 R601). -/
inductive Output where
  | piaRead (region : BitVec 4) (addr : BitVec 24) (bytes : Nat)
  | piaWrite (region : BitVec 4) (addr : BitVec 24) (bytes : Nat) (data : Word)
  | dmaRead (channel : Nat) (acs : Bool) (perAddr : Byte) (bytes : Nat)
  | dmaWrite (channel : Nat) (acs : Bool) (perAddr : Byte) (bytes : Nat) (data : Word)
  | latchRead (bytes : Nat)
  | latchWrite (bytes : Nat) (data : Word)
  | vdramCycle (addr : Word)
  | masterRead (addr : Word) (data : Word)
  /-- TXD shows the next level of a frame (62 R626). -/
  | txBit (level : Bool)
  /-- A change of the level of TXD, DSR (High = 1), PSYNC or VDAT as outputs (62 R626, R629, R665, R667). -/
  | txd (level : Bool)
  | dsr (level : Bool)
  | psync (level : Bool)
  | vdat (level : Bool)
  /-- STAT2-STAT0 as sampled (62 R684, R686, R689). -/
  | stat (code : BitVec 3)
  /-- What was captured in the TAP's Instruction Register, its Bypass Register and the ID-bus cells (62 R683, R684). -/
  | tapInstruction (code : BitVec 3)
  | tapBypass (b : Bool)
  | tapIdCells (w : Word)
  deriving DecidableEq, Repr

/-- Why a step stops with a fault: an address that does not exist on this part or in the current configuration
(20 R111, 93 U11, U12). All are safe: the hardware goes on in a way the spec does not define. -/
inductive Fault where
  /-- Load, store, DMA or external-master access to an address that no device decodes (20 R111). Safe. -/
  | unimplementedAddress (a : Word)
  /-- Instruction fetch outside ROM, DRAM and mapped DRAM, or where no single bank decodes (20 R104, 93 U12). Safe. -/
  | fetchAddress (a : Word)
  /-- The vector of an interrupt or trap does not lie in a decoded ROM or DRAM bank (60 R470, 20 R111). Safe. -/
  | vectorAddress (a : Word)
  deriving DecidableEq, Repr

/-- Why a step is refused: what the program or the environment did has no meaning in the spec (93, treatment
"refuse"). All are safe: no claim about what follows can be proved. -/
inductive Refusal where
  /-- An instruction without a meaning in this model. -/
  | notModelled (mnemonic : String)
  /-- A write of absolute register 0 or 2-63 (93 U1, D5). -/
  | unimplementedRegisterWrite (n : AbsReg)
  /-- A local register is named while the shadow Stack Pointer is invalid (93 U3). -/
  | localsUnpredictable
  /-- LOADM or STOREM with CPS.FZ = 1 (93 U8). -/
  | frozenMultiple
  /-- LOADM or STOREM next to another one (70 R725, 93 U9). -/
  | adjacentMultiples
  /-- A reserved OPT code in a load or store, or an OPT other than a word in a multiple (93 U13, 20 R108). -/
  | reservedOpt (opt : BitVec 3)
  /-- A store a ROM bank cannot perform (20 R116, 93 U16). -/
  | romWrite (a : Word)
  /-- An unaligned word store to a 16-bit DRAM bank (93 U17). -/
  | dramUnalignedStore (a : Word)
  /-- A trap condition that cannot be ignored while CPS.DA = 1 (60 R472, D19, 93 U21). -/
  | trapWhileDisabled (vn : VecNum)
  /-- A store into one of the next four instruction words (20 R134, D13). -/
  | selfModify (a : Word)
  /-- A load or store after CHC.ML was set by MTSR (93 U38). -/
  | multipleByHand
  /-- A reserved code or an Am29205-reserved field in a peripheral register (93 U30). -/
  | reservedField (a : Word)
  /-- A DMA address that is not a multiple of the width (93 U27). -/
  | dmaMisaligned (channel : Nat)
  /-- Two requesters on a channel, or direction or width not matching the peripheral (93 U28). -/
  | dmaRequester (channel : Nat)
  /-- Serial or video configuration changed while the unit is enabled (93 U32), or the parallel port's direction
  changed with MODE not 00 (62 R641). -/
  | unitEnabledChange (a : Word)
  /-- CNTL changed by two bits, or to a mode that is not allowed (62 R686, 93 U34). -/
  | cntlTransition (v : BitVec 2)
  /-- An external-master access that GREQ/GACK does not support: of a bank that is not 32 bits wide or has no wait state
  (61 R615). -/
  | masterUnsupported (a : Word)
  /-- A forbidden instruction in Load Test Instruction mode (62 R690, 93 U34), or a load next to a store there
  (62 R691). -/
  | injectedInstruction (w : Word)
  deriving DecidableEq, Repr

/-- The machine. -/
structure State where
  variant : Variant
  strap : RomStrap
  pc : Word
  npc : Word
  prevPc : Word
  gr1 : Word
  shadow : Shadow
  gr : Vector Word 64
  lr : Vector Word 128
  vab : Word
  ops : Word
  cps : Word
  cha : Word
  chd : Word
  chc : Word
  rbp : Word
  tmc : Word
  tmr : Word
  pc0 : Word
  pc1 : Word
  pc2 : Word
  ipa : Word
  ipb : Word
  ipc : Word
  q : Word
  alu : Word
  recent : Recent
  fzSettle : Nat
  chcMl : Bool
  mode : OpMode
  warnLatch : Bool
  warnSoon : Bool
  flight : Option Flight
  multiple : Option Multiple
  dbg : Debug
  mem : List Host.Cell
  romWritable : BitVec 4
  rmct : Word
  rmcf : Word
  drct : Word
  drcf : Word
  drm0 : Word
  drm1 : Word
  drm2 : Word
  drm3 : Word
  pict0 : Word
  pict1 : Word
  ict : Word
  dma0 : DmaChannel
  dma1 : DmaChannel
  tailAddr : BitVec 24
  tailCount : BitVec 24
  poct : Word
  pout : Word
  poen : Word
  pioSeen : BitVec 16
  pioAge : Nat
  serial : Serial
  pport : Parallel
  video : Video
  pins : Pins
  schedule : List Event
  outbox : List Output
  free : Nat
  deriving DecidableEq, Repr

/-- A step, or part of one. -/
abbrev Result := Host.Outcome State Fault Refusal

/-- Input pins with nothing asserted (log 8). -/
def Pins.inactive : Pins where
  intr := 0
  trap := 0
  warn := false
  pio := 0
  dreq := 3
  tdma := false
  dtr := false
  pstrobe := false
  pautofd := false
  psync := false
  lsync := false
  hostData := 0

/-- RMCT.DW0 as BOOTW and the part set it (61 R545). -/
def bootWidth : Variant → RomStrap → Word
  | .am29205, _ => 0x40000000
  | .am29200, .width32 => 0
  | .am29200, .width16 => 0x40000000
  | .am29200, .width8 => 0x20000000

/-- Right after reset (10 R58, 61 R545, 70 R700, R701). Registers whose value the spec leaves undefined hold 0, the
indirect pointers gr64 (log 3). -/
def State.resetFor (variant : Variant) (strap : RomStrap) : State where
  variant := variant
  strap := strap
  pc := 0
  npc := 4
  prevPc := 0
  gr1 := 0
  shadow := ⟨0, false⟩
  gr := Vector.replicate 64 0
  lr := Vector.replicate 128 0
  vab := 0
  ops := 0
  cps := 0x413
  cha := 0
  chd := 0
  chc := 0
  rbp := 0
  tmc := 0
  tmr := 0
  pc0 := 0
  pc1 := 0
  pc2 := 0
  ipa := 0x100
  ipb := 0x100
  ipc := 0x100
  q := 0
  alu := 0
  recent := Recent.none
  fzSettle := 0
  chcMl := false
  mode := .executing
  warnLatch := false
  warnSoon := false
  flight := none
  multiple := none
  dbg := ⟨7, 3, [], 0, false, false, false, 0, none, none, none, none⟩
  mem := []
  romWritable := 0xF
  rmct := 0x03000000 ||| bootWidth variant strap
  rmcf := 0x00FFFFFF
  drct := 0x1FF
  drcf := 0
  drm0 := 0
  drm1 := 0
  drm2 := 0
  drm3 := 0
  pict0 := 0
  pict1 := 0
  ict := 0
  dma0 := ⟨0, 0, 0, false⟩
  dma1 := ⟨0, 0, 0, false⟩
  tailAddr := 0
  tailCount := 0
  poct := 0
  pout := 0
  poen := 0
  pioSeen := 0
  pioAge := 0
  serial := ⟨0, 0x600, 0, 0, 0, 0, false, [], none, 0⟩
  pport := ⟨0x80, .idle, 0, false, 0, 0, false, false, 0, 0, true⟩
  video := ⟨0x400, 0, 0, 0, false, 0, 0, 0, 0, 0, false, false, false, 0, 0, false, false, false, false, false⟩
  pins := Pins.inactive
  schedule := []
  outbox := []
  free := 0

/-- The machine after reset: an Am29200 whose boot ROM is strapped 32 bits wide (log 1). -/
def State.reset : State := State.resetFor .am29200 .width32

end Sys2Proof.Machine
end

