-- ==== Sys2Proof/Machine/Flags.lean ====
section
/-! DEFINITION. The fields of CPS, ALU Status and CHC (10 R34-R37, R41, R48), and every flag computation
(40 R201, 41 R231-R237, 43 R300). -/

namespace Sys2Proof.Machine

/-! ### Current Processor Status (10 R34) -/

/-- Implemented and stored bits of CPS: TD TE TP TU FZ WM SM IM DI DA. IP is computed (10 R35). -/
def cpsMask : Word := 0x00023C9F

/-- Implemented bits of OPS: those of CPS and the copied IP (10 R33). -/
def opsMask : Word := 0x00027C9F

/-- CPS.TD, Timer Disable. -/
def State.td (s : State) : Bool := bit s.cps 17
/-- CPS.TE, Trace Enable. -/
def State.te (s : State) : Bool := bit s.cps 13
/-- CPS.TP, Trace Pending. -/
def State.tp (s : State) : Bool := bit s.cps 12
/-- CPS.TU, Trap Unaligned Access. -/
def State.tu (s : State) : Bool := bit s.cps 11
/-- CPS.FZ, Freeze. -/
def State.fz (s : State) : Bool := bit s.cps 10
/-- CPS.WM, Wait Mode. -/
def State.wm (s : State) : Bool := bit s.cps 7
/-- CPS.SM, Supervisor Mode. -/
def State.sm (s : State) : Bool := bit s.cps 4
/-- CPS.IM, Interrupt Mask. -/
def State.im (s : State) : BitVec 2 := bits s.cps 2 2
/-- CPS.DI, Disable Interrupts. -/
def State.di (s : State) : Bool := bit s.cps 1
/-- CPS.DA, Disable All Interrupts and Traps. -/
def State.da (s : State) : Bool := bit s.cps 0

/-- The Current Processor Status after an interrupt or trap (60 R471, D2). -/
def trapCps (cps : Word) : Word := (cps &&& 0x0002080C) ||| 0x00000413

/-- The copy of TE into TP when an instruction completes (60 R478). -/
def traceCopy (cps : Word) : Word := putBit cps 12 (bit cps 13)

/-! ### ALU Status (10 R48) -/

/-- Implemented bits of ALU Status. -/
def aluMask : Word := 0x00000FFF

/-- ALU.DF, Divide Flag. -/
def State.df (s : State) : Bool := bit s.alu 11
/-- ALU.V, Overflow. -/
def State.vFlag (s : State) : Bool := bit s.alu 10
/-- ALU.N, Negative. -/
def State.nFlag (s : State) : Bool := bit s.alu 9
/-- ALU.Z, Zero. -/
def State.zFlag (s : State) : Bool := bit s.alu 8
/-- ALU.C, Carry. -/
def State.cFlag (s : State) : Bool := bit s.alu 7
/-- ALU.BP, Byte Pointer. -/
def State.bp (s : State) : BitVec 2 := bits s.alu 5 2
/-- ALU.FC, Funnel Shift Count. -/
def State.fc (s : State) : BitVec 5 := bits s.alu 0 5

/-- The result of the adder: the sum, the carry out, signed overflow. -/
structure AddResult where
  r : Word
  c : Bool
  v : Bool
  deriving DecidableEq, Repr

/-- AddCore (40 R201): the 33-bit sum; overflow is the carry out against the carry into bit 31. -/
def addCore (x y : Word) (cin : Bool) : AddResult :=
  let n := x.toNat + y.toNat + cin.toNat
  let c31 := (x.toNat % 2 ^ 31 + y.toNat % 2 ^ 31 + cin.toNat) / 2 ^ 31 == 1
  { r := BitVec.ofNat 32 n
    c := n / 2 ^ 32 == 1
    v := (n / 2 ^ 32 == 1) != c31 }

/-- V, N, Z, C in ALU Status, other bits kept. -/
def aluVNZC (alu : Word) (v n z c : Bool) : Word :=
  putBit (putBit (putBit (putBit alu 10 v) 9 n) 8 z) 7 c

/-- SetArithFlags (40 R201): from the add and the word written; nothing while FZ = 1 (10 R55). -/
def State.setArithFlags (s : State) (a : AddResult) (written : Word) : State :=
  { s with alu := if s.fz then s.alu else aluVNZC s.alu a.v (bit a.r 31) (written == 0) a.c }

/-- N and Z of a logical result (43 R300); nothing while FZ = 1. -/
def State.setLogicFlags (s : State) (r : Word) : State :=
  { s with alu := if s.fz then s.alu else putBit (putBit s.alu 9 (bit r 31)) 8 (r == 0) }

/-- The Divide Flag (41 R234-R236); nothing while FZ = 1. -/
def State.setDf (s : State) (b : Bool) : State :=
  { s with alu := if s.fz then s.alu else putBit s.alu 11 b }

/-- The Byte Pointer set to 11 by a load or store whose SB bit is 1 (45 R331 step 3). -/
def State.setBp (s : State) (sb : Bool) : State :=
  { s with alu := if sb && !s.fz then putBits s.alu 5 3#2 else s.alu }

/-- Both shifts of a multiply or divide step see the new Divide Flag
`NOT (c XOR DF XOR N)` (41 R235). -/
def divideFlag (s : State) (c : Bool) : Bool := !((c != s.df) != s.nFlag)

/-! ### Channel Control (10 R41) -/

/-- Implemented bits of CHC. -/
def chcMask : Word := 0xFFFFE3FF

/-- CHC.CR, transfers remaining, zero-based. -/
def State.cr (s : State) : BitVec 8 := bits s.chc 16 8
/-- CHC.CV, Contents Valid. -/
def State.cv (s : State) : Bool := bit s.chc 0
/-- CHC.NN, Not Needed. -/
def State.nn (s : State) : Bool := bit s.chc 1
/-- CHC.ML, a load or store multiple is incomplete. -/
def State.ml (s : State) : Bool := bit s.chc 14

/-- CHC of an access (45 R332): control byte, count, kind, register, Contents Valid. -/
def chcWord (cntl cr : BitVec 8) (load multi set : Bool) (reg : AbsReg) (cv : Bool) : Word :=
  cntl ++ cr ++ BitVec.ofBool load ++ BitVec.ofBool multi ++ BitVec.ofBool set ++ 0#3 ++ reg ++ 0#1 ++ BitVec.ofBool cv

end Sys2Proof.Machine
end

