-- ==== Sys2Proof/Machine/Operands.lean ====
section
/-! DEFINITION. Operand forms: register-number resolution, the one operation that reads and the one that writes a
general-purpose register, bank protection, and the operand patterns the instruction formats share (10 R20-R27,
30 R163-R171, 70 R722, R723). -/

namespace Sys2Proof.Machine

/-! ### Free-value slots of one instruction (log 7)

Before `enter`: slots 0-2 choose between old and new pointers, 3-5 are reads of unimplemented registers. After it:
slot 6 is the open datum of a load, 7 that of CHD, 5 an open count or pointer, 0 an open event, 3 the register a
transfer of STOREM reads. -/

/-- How many free values an instruction reserves. -/
def freeSlots : Nat := 8

/-- A free word of this instruction. -/
def State.freeWord (s : State) (slot : Nat) : Word := Config.freeWord (s.free + slot)

/-- A free choice of this instruction. -/
def State.freeBool (s : State) (slot : Nat) : Bool := Config.freeBool (s.free + slot)

/-- The free values of one instruction or transfer used up. -/
def State.reserve (s : State) : State := { s with free := s.free + freeSlots }

/-- The state an instruction works on after its operands are read: hazard windows of its predecessor closed, its free
values reserved. -/
def State.enter (s : State) : State := { s with recent := Recent.none, free := s.free + freeSlots }

/-! ### Resolution (10 R22-R24) -/

/-- The absolute number of a local register under a shadow Stack Pointer (10 R23). -/
def absOfLocal (sp : Word) (f : RegNum) : AbsReg :=
  0x80#8 ||| ((f + (bits sp 2 7).setWidth 8) &&& 0x7F#8)

/-- Position of a register field. -/
inductive Pos where
  | A
  | B
  | C
  deriving DecidableEq, Repr

/-- Slot of the old-or-new choice of a position. -/
def Pos.slot : Pos → Nat
  | .A => 0
  | .B => 1
  | .C => 2

/-- The indirect pointer a position uses (10 R24). -/
def Pos.pointer : Pos → State → Word
  | .A, s => s.ipa
  | .B, s => s.ipb
  | .C, s => s.ipc

/-- The pointer's value before the previous instruction, if that wrote it (70 R723). -/
def Pos.oldPointer : Pos → State → Option Word
  | .A, s => s.recent.ipa
  | .B, s => s.recent.ipb
  | .C, s => s.recent.ipc

/-- The pointer in effect: right after a write, the old or the new one (93 U26). -/
def pointerOf (p : Pos) (s : State) : Word :=
  match p.oldPointer s with
  | none => p.pointer s
  | some old => if s.freeBool p.slot then old else p.pointer s

/-- The shadow Stack Pointer in effect: right after a write of gr1, the old or the new one (93 U25); none when it is
not valid (93 U3). -/
def shadowOf (p : Pos) (s : State) : Option Word :=
  match s.recent.sp with
  | none => if s.shadow.valid then some s.shadow.val else none
  | some old =>
    if s.shadow.valid && old.valid then some (if s.freeBool p.slot then old.val else s.shadow.val) else none

/-- X(f) of 10 R24: the absolute number a register field names. -/
def resolve (p : Pos) (f : RegNum) (s : State) : Option AbsReg :=
  if f = 0 then some (bits (pointerOf p s) 2 8)
  else if f.toNat < 128 then some f
  else (shadowOf p s).map fun sp => absOfLocal sp f

/-! ### Reading and writing a register -/

/-- A register by absolute number; 0 and 2-63 hold nothing and read as a free value (10 R26, D5, 93 U1). -/
def readReg (slot : Nat) (n : AbsReg) (s : State) : Word :=
  if n = 1 then s.gr1
  else if n.toNat < 64 then s.freeWord slot
  else if n.toNat < 128 then s.gr[n.toNat % 64]'(Nat.mod_lt _ (by decide))
  else s.lr[n.toNat % 128]'(Nat.mod_lt _ (by decide))

/-- Absolute numbers that name a register: gr1, gr64-gr127, the 128 locals (10 R20, R26). -/
def hasStorage (n : AbsReg) : Bool := n == 1 || decide (64 ≤ n.toNat)

/-- The shadow Stack Pointer after a register took v: arithmetic and logical results written to gr1 set it, any other
makes it invalid (10 R25). -/
def shadowAfter (aluClass : Bool) (n : AbsReg) (v : Word) (s : State) : Shadow :=
  if n = 1 then (if aluClass then ⟨v, true⟩ else { s.shadow with valid := false }) else s.shadow

/-- A register with storage takes v; after a write of gr1 the old shadow copy may still serve the next instruction
(70 R722). -/
def State.putReg (s : State) (aluClass : Bool) (n : AbsReg) (v : Word) : State :=
  { s with
    gr1 := if n = 1 then v else s.gr1
    shadow := shadowAfter aluClass n v s
    recent := if n = 1 then { s.recent with sp := some s.shadow } else s.recent
    gr := if 64 ≤ n.toNat ∧ n.toNat < 128 then s.gr.set (n.toNat % 64) v (Nat.mod_lt _ (by decide)) else s.gr
    lr := if 128 ≤ n.toNat then s.lr.set (n.toNat % 128) v (Nat.mod_lt _ (by decide)) else s.lr }

/-- A register written by absolute number; none where there is no storage (93 U1). -/
def writeReg (aluClass : Bool) (n : AbsReg) (v : Word) (s : State) : Option State :=
  if hasStorage n then some (s.putReg aluClass n v) else none

/-- Bank protection (10 R27). DESIGN CHOICE (log 42): the control byte of CONVERT, CLASS and SQRT is checked like any
number, where the parenthesis of 47 R382 names RBP bit 0 for all of them below 64. -/
def isProtected (s : State) (n : AbsReg) : Bool :=
  !s.sm && decide (2 ≤ n.toNat) && bit s.rbp (n.toNat / 16)

/-! ### Operands -/

/-- A resolved second source: a register or a constant. -/
inductive Src where
  | reg (n : AbsReg)
  | const (w : Word)
  deriving DecidableEq, Repr

/-- "RB or I" (30 R163, R171). -/
def resolveSrc (b : SrcB) (s : State) : Option Src :=
  match b with
  | .reg f => (resolve .B f s).map Src.reg
  | .imm i => some (.const (zext i))

/-- The operand's value. -/
def Src.value (b : Src) (s : State) : Word :=
  match b with
  | .reg n => readReg 4 n s
  | .const w => w

/-- Whether the operand is a protected register. -/
def Src.isProtected (b : Src) (s : State) : Bool :=
  match b with
  | .reg n => Machine.isProtected s n
  | .const _ => false

/-! ### Operand patterns of the formats: each gives the resolved registers, or none (93 U3) -/

/-- Destination, first source, second source (30 R164). -/
structure Operands3 where
  c : AbsReg
  a : AbsReg
  b : Src
  deriving DecidableEq, Repr

/-- Operands of the RRM format. -/
def operandsRRM (rc ra : RegNum) (b : SrcB) (s : State) : Option Operands3 :=
  match resolve .C rc s, resolve .A ra s, resolveSrc b s with
  | some c, some a, some b => some ⟨c, a, b⟩
  | _, _, _ => none

/-- Whether any operand of the RRM format is protected. -/
def Operands3.isProtected (o : Operands3) (s : State) : Bool :=
  Machine.isProtected s o.c || Machine.isProtected s o.a || o.b.isProtected s

/-- SRCA. -/
def Operands3.va (o : Operands3) (s : State) : Word := readReg 3 o.a s

/-- SRCB. -/
def Operands3.vb (o : Operands3) (s : State) : Word := o.b.value s

/-- First source (or data register) and second source: formats VRM and LS. -/
structure Operands2 where
  a : AbsReg
  b : Src
  deriving DecidableEq, Repr

/-- Operands of the VRM and LS formats. -/
def operandsAB (ra : RegNum) (b : SrcB) (s : State) : Option Operands2 :=
  match resolve .A ra s, resolveSrc b s with
  | some a, some b => some ⟨a, b⟩
  | _, _ => none

/-- Whether any operand is protected. -/
def Operands2.isProtected (o : Operands2) (s : State) : Bool :=
  Machine.isProtected s o.a || o.b.isProtected s

/-- SRCA. -/
def Operands2.va (o : Operands2) (s : State) : Word := readReg 3 o.a s

/-- SRCB. -/
def Operands2.vb (o : Operands2) (s : State) : Word := o.b.value s

/-- The three absolute numbers of SETIP, EMULATE and the trapping instructions (41 R240, 49 R442). -/
structure Numbers where
  c : AbsReg
  a : AbsReg
  b : AbsReg
  deriving DecidableEq, Repr

/-- Three register fields turned into absolute numbers. -/
def resolveNumbers (rc ra rb : RegNum) (s : State) : Option Numbers :=
  match resolve .C rc s, resolve .A ra s, resolve .B rb s with
  | some c, some a, some b => some ⟨c, a, b⟩
  | _, _, _ => none

/-- Whether any of the three numbers is protected. -/
def Numbers.isProtected (n : Numbers) (s : State) : Bool :=
  Machine.isProtected s n.c || Machine.isProtected s n.a || Machine.isProtected s n.b

/-! ### Indirect pointers (10 R46) -/

/-- An absolute number as a pointer register holds it. -/
def pointerWord (n : AbsReg) : Word := zext n <<< 2

/-- IPA written; the next instruction may still see the old pointer (70 R723). -/
def State.writeIpa (s : State) (n : AbsReg) : State :=
  { s with ipa := pointerWord n, recent := { s.recent with ipa := some s.ipa } }

/-- IPB written. -/
def State.writeIpb (s : State) (n : AbsReg) : State :=
  { s with ipb := pointerWord n, recent := { s.recent with ipb := some s.ipb } }

/-- IPC written. -/
def State.writeIpc (s : State) (n : AbsReg) : State :=
  { s with ipc := pointerWord n, recent := { s.recent with ipc := some s.ipc } }

/-- All three pointers written. -/
def State.setPointers (s : State) (n : Numbers) : State :=
  { s with
    ipa := pointerWord n.a
    ipb := pointerWord n.b
    ipc := pointerWord n.c
    recent := { s.recent with ipa := some s.ipa, ipb := some s.ipb, ipc := some s.ipc } }

end Sys2Proof.Machine
end

