-- ==== Sys2Proof/Machine/Interrupts.lean ====
section
/-! DEFINITION. The programmable I/O lines, the interrupt controller, and which asynchronous event the core takes
(61 R560-R577, 60 R466, R480-R483). -/

namespace Sys2Proof.Machine

/-! ### Programmable I/O port (61 R570-R575) -/

/-- Lines that exist: 15-0, on the Am29205 15-8 (61 R574). -/
def pioLines (v : Variant) : BitVec 16 := if v = .am29200 then 0xFFFF else 0xFF00

/-- Electrical level of the lines (61 R574). -/
def pinLevel (s : State) : BitVec 16 :=
  let oe : BitVec 16 := bits s.poen 0 16
  (oe &&& (bits s.pout 0 16 ^^^ bits s.poct 0 16)) ||| (~~~oe &&& s.pins.pio)

/-- The PIN field (61 R571): the levels as last sampled (61 R577). DESIGN CHOICE (log 34): a store that changes INVERT shows
at once, while the level of a driven line, which it changes too, is sampled later, so that PIN may be wrong in between. -/
def pinField (s : State) : BitVec 16 := (s.pioSeen ^^^ bits s.poct 0 16) &&& pioLines s.variant

/-- IRMn of line n, 8 to 15 (61 R570). -/
def irm (s : State) (n : Nat) : BitVec 2 := bits s.poct (2 * n) 2

/-- ICT bits set by lines whose level is active in level mode (61 R575). -/
def pioLevelBits (s : State) : Word :=
  (List.range 8).foldl (fun acc k =>
    if irm s (8 + k) == 1 && (pinField s).getLsbD (8 + k) then putBit acc (16 + k) true else acc) 0

/-- ICT bits set by active lines in edge mode, where `edge n` says that line n made an edge (61 R575). DESIGN CHOICE (log
32): the reserved code 11 of lines 14-8, which no store brings but an open value after a reset may be, counts as edge
mode. -/
def pioEdgeBits (s : State) (edge : Nat → Bool) : Word :=
  (List.range 8).foldl (fun acc k =>
    if (irm s (8 + k) == 2 || irm s (8 + k) == 3) && (pinField s).getLsbD (8 + k) && edge (8 + k)
    then putBit acc (16 + k) true else acc) 0

/-- Whether PIO15 with IRM15 = 11 made its active transition (61 R576). -/
def pioBusyEdge (s : State) (edge : Nat → Bool) : Bool :=
  irm s 15 == 3 && (pinField s).getLsbD 15 && edge 15

/-- Edges latched: the ICT bits, and FBUSY for PIO15 (61 R575, R576). -/
def latchEdges (edge : Nat → Bool) (s : State) : State :=
  let t := { s with ict := s.ict ||| pioEdgeBits s edge }
  if pioBusyEdge s edge then { t with pport := { t.pport with ctl := putBit t.pport.ctl 7 true } } else t

/-- A line that was not active in PIN. -/
def wasInactive (old : State) (n : Nat) : Bool := !(pinField old).getLsbD n

/-- Whether a store to POCT that changes INVERT or IRM of a line makes an edge there is open, line by line (91 N43). -/
def pokedEdge (old new : State) (n : Nat) : Bool :=
  (irm old n != irm new n || bit old.poct n != bit new.poct n) && old.freeBool (n - 8)

/-! ### Interrupt conditions of the units (61 R561) -/

/-- The conditions whose leading edge sets an ICT bit, with the bit. -/
def irqConditions : List ((State → Bool) × Nat) :=
  [ (fun s => bit s.dma0.ctl 0, 14),
    (fun s => bit s.dma0.ctl 1, 14),
    (fun s => bit s.dma1.ctl 0, 13),
    (fun s => bit s.dma1.ctl 1, 13),
    (fun s => bits s.pport.ctl 8 2 == 1#2 && bit s.pport.ctl 15, 11),
    (fun s => bits s.serial.ctl 8 2 == 1#2 && bit s.serial.stat 9, 5),
    (fun s => bits s.serial.ctl 0 2 == 1#2 && bit s.serial.stat 8, 6),
    (fun s => bit s.serial.ctl 2 && bit s.serial.stat 3, 7),
    (fun s => bit s.serial.ctl 2 && bit s.serial.stat 2, 7),
    (fun s => bit s.serial.ctl 2 && bit s.serial.stat 1, 7),
    (fun s => bit s.serial.ctl 2 && bit s.serial.stat 0, 7),
    (fun s => bits s.video.ctl 8 2 == 1#2 && bit s.video.ctl 15, 27) ]

/-- ICT bits set by the conditions that hold in the new state and did not in the old one. -/
def unitEdgeBits (old new : State) : Word :=
  irqConditions.foldl (fun acc p => if p.1 new && !p.1 old then putBit acc p.2 true else acc) 0

/-- Interrupt latching after a move or a peripheral access that led from `old` to `new`: unit edges and active levels
of the I/O port (61 R560, R561). -/
def latchIrqs (old new : State) : State :=
  { new with ict := new.ict ||| unitEdgeBits old new ||| pioLevelBits new }

/-- The same with the edges of the I/O port: lines that were not active and are now (61 R575, R576). -/
def latchPins (old new : State) : State := latchIrqs old (latchEdges (wasInactive old) new)

/-! ### Sampling of the I/O lines (61 R577, log 34) -/

/-- How many core steps a change may wait to be sampled: PIN shows it within four cycles. -/
def pioDelay : Nat := 3

/-- The lines are sampled: PIN takes their levels and interrupts are latched. DESIGN CHOICE (log 33): after a store that
changes INVERT of a line that the chip drives with POUT = 1, PIN is 1, 0 and, sampled here, 1 again, which is an edge. -/
def syncPio (s : State) : State := latchPins s { s with pioSeen := pinLevel s, pioAge := 0 }

/-- What a core step does for the I/O port: a change is sampled now or later, by a free choice, after `pioDelay` steps
at the latest; a pulse in between is missed. Active levels set their ICT bits again (61 R575). DESIGN CHOICE (log 34):
all lines are sampled at once, with one choice and one age. -/
def samplePio (s : State) : State :=
  if pinLevel s = s.pioSeen then { s with pioAge := 0, ict := s.ict ||| pioLevelBits s }
  else if Config.freeBool s.free || decide (pioDelay ≤ s.pioAge) then { syncPio s with free := s.free + freeSlots }
  else { s with pioAge := s.pioAge + 1, ict := s.ict ||| pioLevelBits s, free := s.free + freeSlots }

/-! ### Requests and enables (60 R481-R483) -/

/-- Implemented bits of ICT (61 R560, R564). -/
def ictMask : Word := 0x08FF68E0

/-- The Interrupt Control Register requests INTR3 (61 R562). -/
def internalRequest (s : State) : Bool := s.ict &&& ictMask != 0

/-- The external interrupt inputs that exist (60 R480, R492). -/
def intrInputs (s : State) : BitVec 4 :=
  s.pins.intr &&& (if s.variant = .am29200 then 0xF else 0xC)

/-- Request of INTRn, n = 3 with the internal peripherals (60 R483). -/
def intrRequest (s : State) (n : Nat) : Bool :=
  (intrInputs s).getLsbD n || (decide (n = 3) && internalRequest s)

/-- Enable of INTRn (60 R481). -/
def intrEnabled (s : State) (n : Nat) : Bool := !s.da && !s.di && decide (n ≤ s.im.toNat)

/-- CPS.IP (60 R482, D7). -/
def ipBit (s : State) : Bool :=
  (List.range 4).any fun n => intrRequest s n && !intrEnabled s n

/-- CPS as software reads it and as a trap saves it. -/
def cpsValue (s : State) : Word := putBit s.cps 14 (ipBit s)

/-- The trap inputs, on the Am29200 only. -/
def trapRequest (s : State) (n : Nat) : Bool := decide (s.variant = .am29200) && s.pins.trap.getLsbD n

/-- The Timer interrupt is requested and enabled (60 R481). -/
def timerActive (s : State) : Bool := !s.da && !s.td && bit s.tmr 24 && bit s.tmr 25

/-- Vector numbers of the hardware's own interrupts and traps (60 R462). -/
def vIllegal : VecNum := 0
/-- Unaligned Access. -/
def vUnaligned : VecNum := 1
/-- Out-of-Range. -/
def vOutOfRange : VecNum := 2
/-- Protection Violation. -/
def vProtection : VecNum := 5
/-- Timer. -/
def vTimer : VecNum := 14
/-- Trace. -/
def vTrace : VecNum := 15

/-- Instruction Mapping Miss in the current mode (60 R465). -/
def vInstrMiss (s : State) : VecNum := if s.sm then 10 else 8
/-- Data Mapping Miss in the current mode (60 R465). -/
def vDataMiss (s : State) : VecNum := if s.sm then 11 else 9

/-- The asynchronous event to take, the first of 60 R466 step 2 that is active and enabled. -/
def asyncEvent (s : State) : Option VecNum :=
  if !s.da && trapRequest s 0 then some 20
  else if !s.da && trapRequest s 1 then some 21
  else if intrRequest s 0 && intrEnabled s 0 then some 16
  else if intrRequest s 1 && intrEnabled s 1 then some 17
  else if intrRequest s 2 && intrEnabled s 2 then some 18
  else if intrRequest s 3 && intrEnabled s 3 then some 19
  else if timerActive s then some vTimer
  else if !s.da && s.tp then some vTrace
  else none

end Sys2Proof.Machine
end

