-- ==== Sys2Proof/Machine/Memory.lean ====
section
/-! DEFINITION. Storage of the ROM and DRAM regions: bytes by address in one canonical form (20 R101, R102). -/

namespace Sys2Proof.Machine

/-- What a byte that nothing has written reads as (log 2). -/
def unlistedByte : Byte := 0

/-- The byte at an address. -/
def Memory.get : List Host.Cell → Nat → Byte
  | [], _ => unlistedByte
  | (b, v) :: m, a => if a = b then v else Memory.get m a

/-- A byte stored: addresses stay rising and a byte that reads as unlisted is not kept. -/
def Memory.put : List Host.Cell → Nat → Byte → List Host.Cell
  | [], a, v => if v = unlistedByte then [] else [(a, v)]
  | (b, w) :: m, a, v =>
    if a < b then (if v = unlistedByte then (b, w) :: m else (a, v) :: (b, w) :: m)
    else if a = b then (if v = unlistedByte then m else (b, v) :: m)
    else (b, w) :: Memory.put m a v

/-- Addresses above a bound rise strictly and no byte reads as unlisted. -/
def Memory.above : Nat → List Host.Cell → Bool
  | _, [] => true
  | lo, (b, v) :: m => decide (lo ≤ b) && v != unlistedByte && Memory.above (b + 1) m

/-- The canonical form. -/
def Memory.wf (m : List Host.Cell) : Bool := Memory.above 0 m

/-- Bytes stored at rising addresses. -/
def Memory.putBytes (m : List Host.Cell) (a : Nat) : List Byte → List Host.Cell
  | [] => m
  | v :: vs => Memory.putBytes (Memory.put m a v) (a + 1) vs

/-- The big-endian word at an address (20 R101, R102). -/
def Memory.word (m : List Host.Cell) (a : Nat) : Word :=
  wordOfBytes (Memory.get m a) (Memory.get m (a + 1)) (Memory.get m (a + 2)) (Memory.get m (a + 3))

/-- The bytes of a word, first the one at the lowest address (20 R101). -/
def wordBytes (w : Word) : List Byte := [byteOfWord w 0, byteOfWord w 1, byteOfWord w 2, byteOfWord w 3]

/-! ### Widths and lanes of an access (20 R105-R107) -/

/-- Bytes moved by an OPT code: word, byte, half-word (20 R108). -/
def optBytes (opt : BitVec 3) : Nat :=
  if opt = 1 then 1 else if opt = 2 then 2 else 4

/-- The first address of the accessed datum, low bits dropped (20 R105, R106). -/
def accessBase (opt : BitVec 3) (a : Word) : Word :=
  if opt = 1 then a else if opt = 2 then a &&& 0xFFFFFFFE else wordAligned a

/-- Whether an access is unaligned (20 R107). -/
def unaligned (opt : BitVec 3) (a : Word) : Bool :=
  (opt == 0 && bits a 0 2 != 0) || (opt == 2 && bit a 0)

/-- The datum of a load out of its aligned word (20 R105). -/
def selectData (opt : BitVec 3) (sb : Bool) (a w : Word) : Word :=
  if opt = 1 then
    let b := w.extractLsb' (24 - 8 * (bits a 0 2).toNat) 8
    if sb then sext b else zext b
  else if opt = 2 then
    let h : Half := if bit a 1 then bits w 0 16 else bits w 16 16
    if sb then sext h else zext h
  else w

/-- The word a store drives: the low byte or half-word in every position (20 R106). -/
def replicateData (opt : BitVec 3) (v : Word) : Word :=
  let b : Byte := bits v 0 8
  let h : Half := bits v 0 16
  if opt = 1 then b ++ b ++ b ++ b else if opt = 2 then h ++ h else v

/-- The bytes a store puts at `accessBase` (20 R106). -/
def storeBytes (opt : BitVec 3) (v : Word) : List Byte :=
  if opt = 1 then [bits v 0 8]
  else if opt = 2 then [bits v 8 8, bits v 0 8]
  else wordBytes v

/-- An aligned ROM word as a narrow bank returns it for an address with low bits set and TU = 0 (20 R115): an 8-bit
bank delivers bytes from the address on, wrapping; a 16-bit bank delivers half-words. -/
def narrowView (width : Nat) (opt : BitVec 3) (a w : Word) : Word :=
  if opt = 0 then
    if width = 8 then w.rotateLeft (8 * (bits a 0 2).toNat)
    else if width = 16 && bit a 1 then w.rotateLeft 16
    else w
  else if opt = 2 && width = 8 && bit a 0 then
    byteOfWord w 1 ++ byteOfWord w 0 ++ byteOfWord w 3 ++ byteOfWord w 2
  else w

end Sys2Proof.Machine
end

