-- ==== Sys2Proof/Machine/Regions.lean ====
section
/-! DEFINITION. The address map, bank selection and the mapping of DRAM (20 R110-R122, 61 R546-R552), and the plain
word fetches of instructions and vectors (20 R104, 60 R470). -/

namespace Sys2Proof.Machine

/-- Rows of the address map (20 R110). -/
inductive Region where
  | rom
  | dram
  | mapped
  | vdram
  | periph
  | pia (r : BitVec 4)
  | reserved
  deriving DecidableEq, Repr

/-- The row an address lies in (20 R110, R111). -/
def region (v : Variant) (a : Word) : Region :=
  if bits a 26 6 = 0 then .rom
  else if bits a 26 6 = 0x10 then .dram
  else if bits a 24 8 = 0x50 then .mapped
  else if bits a 26 6 = 0x18 then (if v = .am29200 then .vdram else .reserved)
  else if bits a 8 24 = 0x800000 then .periph
  else if bits a 28 4 = 9 then
    if (bits a 24 4).toNat < (if v = .am29200 then 6 else 2) then .pia (bits a 24 4) else .reserved
  else .reserved

/-! ### Banks (20 R114, R117) -/

/-- ASELx of a configuration register (61 R547). -/
def asel (cfg : Word) (x : Nat) : BitVec 5 := bits cfg (27 - 8 * x) 5

/-- AMASKx of a configuration register. -/
def amask (cfg : Word) (x : Nat) : BitVec 3 := bits cfg (24 - 8 * x) 3

/-- Whether an AMASK code is defined (20 R114); `big` says which codes LM = 1 reserves on the Am29205. -/
def amaskValid (big : List (BitVec 3)) (m : BitVec 3) : Bool :=
  [0#3, 1#3, 3#3, 7#3].contains m && !big.contains m

/-- Whether bank x accepts an address: the unmasked bits of ASELx equal ad(23:19), or ad(25:21) with LM = 1. -/
def bankMatch (cfg : Word) (lm : Bool) (a : Word) (x : Nat) : Bool :=
  let ad : BitVec 5 := if lm then bits a 21 5 else bits a 19 5
  ((ad ^^^ asel cfg x) &&& ~~~((amask cfg x).setWidth 5)) == 0

/-- Whether banks x and y have an address in common: ASELx and ASELy agree where both masks compare. -/
def banksMeet (cfg : Word) (x y : Nat) : Bool :=
  ((asel cfg x ^^^ asel cfg y) &&& ~~~((amask cfg x ||| amask cfg y).setWidth 5)) == 0

/-- The outcome of bank selection. -/
inductive BankHit where
  | bank (x : Nat)
  | nobody
  | reservedCode
  deriving DecidableEq, Repr

/-- The one bank that accepts an address. With LM = 0 addresses beyond 16 Mbytes of the region select no bank
(20 R111, log 24); several banks accepting is the same (61 R547). -/
def selectBank (cfg : Word) (lm : Bool) (big : List (BitVec 3)) (a : Word) : BankHit :=
  if !(List.range 4).all (fun x => amaskValid big (amask cfg x)) then .reservedCode
  else if !lm && bits a 24 2 != 0 then .nobody
  else
    match (List.range 4).filter (bankMatch cfg lm a) with
    | [x] => .bank x
    | _ => .nobody

/-- AMASK codes a ROM bank may not have (20 R114). -/
def romReservedMasks (v : Variant) (lm : Bool) : List (BitVec 3) :=
  if v = .am29205 && lm then [3#3, 7#3] else []

/-- AMASK codes a DRAM bank may not have (20 R117). -/
def dramReservedMasks (v : Variant) (lm : Bool) : List (BitVec 3) :=
  if v = .am29205 && lm then [7#3] else []

/-- Width in bits of ROM bank x; none for a reserved DW code (61 R546). -/
def romWidth (v : Variant) (rmct : Word) (x : Nat) : Option Nat :=
  let dw : BitVec 2 := bits rmct (29 - 8 * x) 2
  if dw = 1 then some 8
  else if dw = 2 then some 16
  else if dw = 0 && v = .am29200 then some 32
  else none

/-- Width in bits of DRAM bank x; none for the code reserved on the Am29205 (61 R550) and for a 16-bit bank of
16 Mbytes, which may have at most 8 (00 R4). -/
def dramWidth (v : Variant) (drct drcf : Word) (x : Nat) : Option Nat :=
  if bit drct (30 - 4 * x) then (if bit drct 28 && amask drcf x == 7 then none else some 16)
  else if v = .am29200 then some 32
  else none

/-! ### Mapped DRAM (20 R119) -/

/-- One mapping register applied to an address (61 R552). -/
def mapOne (drm a : Word) : Option Word :=
  if bit drm 31 && bits drm 16 8 == bits a 16 8 then some (0x40#8 ++ bits drm 0 8 ++ bits a 0 16) else none

/-- `translate`: DRM0 has the highest priority. -/
def translate (s : State) (a : Word) : Option Word :=
  match mapOne s.drm0 a with
  | some p => some p
  | none =>
    match mapOne s.drm1 a with
    | some p => some p
    | none =>
      match mapOne s.drm2 a with
      | some p => some p
      | none => mapOne s.drm3 a

/-! ### Where an access goes (20 R103 steps 2-4) -/

/-- The device that answers an address. -/
inductive Located where
  | rom (bank width : Nat)
  | dram (phys : Word) (width : Nat)
  | vdram
  | periph
  | pia (r : BitVec 4)
  /-- No mapping of a mapped DRAM address is valid. -/
  | miss
  | absent
  | reservedCode
  deriving DecidableEq, Repr

/-- A ROM-region address. -/
def locateRom (s : State) (a : Word) : Located :=
  let lm := bit s.rmct 28
  match selectBank s.rmcf lm (romReservedMasks s.variant lm) a with
  | .bank x =>
    if s.variant = .am29205 && x = 3 then .absent
    else
      match romWidth s.variant s.rmct x with
      | some w => .rom x w
      | none => .reservedCode
  | .nobody => .absent
  | .reservedCode => .reservedCode

/-- A DRAM-region address. -/
def locateDram (s : State) (a : Word) : Located :=
  let lm := bit s.drct 28
  match selectBank s.drcf lm (dramReservedMasks s.variant lm) a with
  | .bank x =>
    match dramWidth s.variant s.drct s.drcf x with
    | some w => .dram a w
    | none => .reservedCode
  | .nobody => .absent
  | .reservedCode => .reservedCode

/-- A VDRAM-region address: the cycle goes to the DRAM bank that the same offset selects (20 R117, R121). DESIGN CHOICE
(log 28): so it does for a 16-bit bank whose page-mode bit is on, which 20 R121 says must be off. -/
def locateVdram (s : State) (a : Word) : Located :=
  match locateDram s a with
  | .dram _ _ => .vdram
  | r => r

/-- Any address. -/
def locate (s : State) (a : Word) : Located :=
  match region s.variant a with
  | .rom => locateRom s a
  | .dram => locateDram s a
  | .mapped =>
    match translate s a with
    | some p => locateDram s p
    | none => .miss
  | .vdram => locateVdram s a
  | .periph => .periph
  | .pia r => .pia r
  | .reserved => .absent

/-- The key of a byte in memory. -/
def cellKey (a : Word) : Nat := a.toNat

/-- The aligned word that a ROM or DRAM address reads (20 R102). -/
def wordAt (s : State) (a : Word) : Word := Memory.word s.mem (cellKey (wordAligned a))

/-- The physical address of a byte of ROM or DRAM: itself, or its mapping (20 R119). -/
def physical (s : State) (a : Word) : Option Word :=
  match locate s a with
  | .rom _ _ => some a
  | .dram p _ => some p
  | _ => none

/-- One byte as a processor access sees it, where the address is ROM or DRAM. -/
def byteAt (s : State) (a : Word) : Option Byte :=
  (physical s a).map fun p => Memory.get s.mem (cellKey p)

/-- The outcome of a word fetch. -/
inductive Fetched where
  | word (w : Word)
  | miss
  | absent
  deriving DecidableEq, Repr

/-- Instruction fetch (20 R104): ROM, DRAM and mapped DRAM only. -/
def fetch (s : State) (a : Word) : Fetched :=
  match locate s a with
  | .rom _ _ => .word (wordAt s a)
  | .dram p _ => .word (wordAt s p)
  | .miss => .miss
  | _ => .absent

/-- The address of a vector (60 R463). -/
def vectorAddress (s : State) (vn : VecNum) : Word := (s.vab &&& 0xFFFFFC00) + (zext vn <<< 2)

/-- The vector fetch: a physical access of ROM or DRAM (60 R463, R470). -/
def vectorFetch (s : State) (vn : VecNum) : Option Word :=
  let a := vectorAddress s vn
  match region s.variant a with
  | .rom | .dram =>
    match fetch s a with
    | .word w => some w
    | _ => none
  | _ => none

end Sys2Proof.Machine
end

