-- ==== Sys2Proof/Machine/Ops.lean ====
section
/-! DEFINITION. How an instruction ends, taking an interrupt or trap, returning from one, and the operand checks every
instruction makes first (60 R466-R472, 49 R447). -/

namespace Sys2Proof.Machine

/-! ### Completion (60 R466 step 8) -/

/-- The instruction at pc completed and control goes on at npc; `next` follows it (70 R721, 60 R478). -/
def finishTo (next : Word) (s : State) : State :=
  { s with
    prevPc := s.pc
    pc := s.npc
    npc := next
    cps := traceCopy s.cps
    fzSettle := s.fzSettle - 1
    free := s.free + freeSlots }

/-- Completion without a branch. -/
def finish (s : State) : State := finishTo (s.npc + 4) s

/-! ### Taking an interrupt or trap (60 R470) -/

/-- FZ went from 1 to 0 within the last two instructions (70 R724). -/
def State.settling (s : State) : Bool := s.fzSettle != 0

/-- The settling count set back to what it was for the instruction that traps. -/
def State.withSettle (s : State) (n : Nat) : State := { s with fzSettle := n }

/-- Step 3a: PC0-PC2 take the interrupted point unless frozen (60 R469). -/
def savePcs (s : State) : State :=
  { s with
    pc0 := if s.fz then s.pc0 else s.npc
    pc1 := if s.fz then s.pc1 else s.pc
    pc2 := if s.fz then s.pc2 else s.prevPc }

/-- The same while a change of FZ settles: what PC0-PC2 and the channel registers hold for the handler is open
(70 R724). -/
def openSaved (s : State) : State :=
  { s with
    pc0 := wordAligned (s.freeWord 0)
    pc1 := wordAligned (s.freeWord 1)
    pc2 := wordAligned (s.freeWord 2)
    cha := s.freeWord 3
    chd := s.freeWord 4
    chc := s.freeWord 5 &&& chcMask
    free := s.free + freeSlots }

/-- What a handler finds saved. -/
def saveContext (s : State) : State := if s.settling then openSaved s else savePcs s

/-- Steps 4 and 5: OPS and CPS (60 R470, R471). -/
def saveStatus (s : State) : State :=
  { s with ops := cpsValue s, cps := trapCps s.cps }

/-- Step 7: control at an address, hazard windows closed (70 R722, R723), no access outstanding (70 R731), the free
values of the entry used up. -/
def enterHandler (a : Word) (s : State) : State :=
  { s with
    pc := wordAligned a
    npc := wordAligned a + 4
    recent := Recent.none
    fzSettle := 0
    flight := none
    free := s.free + freeSlots }

/-- TakeTrap for a state whose pc and npc are the point to return to (60 R470). -/
def takeTrap (vn : VecNum) (s : State) : Result :=
  match vectorFetch s vn with
  | none => .fault (.vectorAddress (vectorAddress s vn))
  | some entry => .next (enterHandler entry (saveStatus (saveContext s)))

/-- A trap before the instruction at pc executes, of a Curr kind; while DA = 1 it cannot be taken (60 R472). -/
def trapCurr (vn : VecNum) (s : State) : Result :=
  if s.da then .refused (.trapWhileDisabled vn) else takeTrap vn s

/-- The trap of an instruction that completed by `leave`. -/
def trapLeaving (leave : State → State) (vn : VecNum) (s : State) : Result :=
  takeTrap vn ((leave s).withSettle s.fzSettle)

/-- A Next-kind trap of an instruction whose effects are already in `s`; while DA = 1 the instruction just completes
(60 R472), and so it does when a WARN comes at the same time: the trap is lost (60 R468 item 4). -/
def trapNext (vn : VecNum) (s : State) : Result :=
  if s.da || s.warnSoon then .next (finish s) else trapLeaving finish vn s

/-- An access trap: like a Next-kind trap, but it cannot be ignored while DA = 1 (60 R472, D19). -/
def trapAccess (vn : VecNum) (s : State) : Result :=
  if s.da then .refused (.trapWhileDisabled vn) else trapNext vn s

/-! ### Returning (49 R447) -/

/-- PC0-PC2 follow the pipeline while FZ = 0 and are in transition right after it was cleared (10 R45, 93 U7). -/
def State.pcsUnsettled (s : State) : Bool := !s.fz || s.settling

/-- PC0-PC2 with open word addresses where they follow the pipeline. -/
def State.floatPcs (s : State) : State :=
  { s with
    pc0 := if s.fz then s.pc0 else wordAligned (s.freeWord 0)
    pc1 := if s.fz then s.pc1 else wordAligned (s.freeWord 1)
    pc2 := if s.fz then s.pc2 else wordAligned (s.freeWord 2) }

/-- The frozen registers as a return finds them: what they hold is open while FZ = 0 (49 R445), and the channel
registers too while a change of FZ settles (70 R724, 93 U7). -/
def State.openPcs (s : State) : State := if s.settling then openSaved s else s.floatPcs

/-- IRET as far as the processor context goes: CPS from OPS, the pc pair from PC1 and PC0. -/
def restoreContext (s : State) : State :=
  { s with
    cps := s.ops &&& cpsMask
    pc := wordAligned s.pc1
    npc := wordAligned s.pc0
    prevPc := s.pc
    recent := Recent.none
    fzSettle := 0
    chcMl := false
    flight := none }

/-! ### Checks before an instruction acts -/

/-- The instruction's register check (10 R27): with a protected register it is a Protection Violation and nothing
else happens. -/
def guarded (violation : Bool) (s : State) (k : Result) : Result :=
  if violation then trapCurr vProtection s else k

/-- RRM format: operands resolved, checked, read, and handed on with the state the instruction works on. -/
def withRRM (rc ra : RegNum) (b : SrcB) (s : State) (k : AbsReg → Word → Word → State → Result) : Result :=
  match operandsRRM rc ra b s with
  | none => .refused .localsUnpredictable
  | some o => guarded (o.isProtected s) s (k o.c (o.va s) (o.vb s) s.enter)

/-- VRM format and the comparisons of asserts: two sources. -/
def withAB (ra : RegNum) (b : SrcB) (s : State) (k : Word → Word → State → Result) : Result :=
  match operandsAB ra b s with
  | none => .refused .localsUnpredictable
  | some o => guarded (o.isProtected s) s (k (o.va s) (o.vb s) s.enter)

/-- A result written to a register, then completion with `k`; a write where there is no storage has no defined effect
(93 U1). -/
def writeThen (aluClass : Bool) (c : AbsReg) (v : Word) (s : State) (k : State → Result) : Result :=
  match writeReg aluClass c v s with
  | none => .refused (.unimplementedRegisterWrite c)
  | some t => k t

/-- A result written, and the instruction completes. -/
def writeFinish (aluClass : Bool) (c : AbsReg) (v : Word) (s : State) : Result :=
  writeThen aluClass c v s fun t => .next (finish t)

end Sys2Proof.Machine
end

