-- ==== Sys2Proof/Machine/Ports.lean ====
section
/-! DEFINITION. The serial port, the parallel port and the video interface: what their data-register accesses and their
own events do (62 R620-R668). Interrupt latching is done by the callers (`latchIrqs`). -/

namespace Sys2Proof.Machine

/-! ### Serial port (62 R620-R629) -/

/-- TMODE is not 00. -/
def Serial.txEnabled (p : Serial) : Bool := bits p.ctl 8 2 != 0
/-- RMODE is not 00. -/
def Serial.rxEnabled (p : Serial) : Bool := bits p.ctl 0 2 != 0
/-- SPCT.LOOP. -/
def Serial.loop (p : Serial) : Bool := bit p.ctl 26
/-- SPST.THRE. -/
def Serial.thre (p : Serial) : Bool := bit p.stat 9
/-- SPST.RDR. -/
def Serial.rdr (p : Serial) : Bool := bit p.stat 8

/-- The data bits of a frame, right-justified: 5 + WLGN of them (62 R621, D27). -/
def Serial.dataBits (p : Serial) (d : Byte) : Byte :=
  d &&& (0xFF#8 >>> (3 - (bits p.ctl 16 2).toNat))

/-- The sections that a control value disables are reset, the baud divider with both of them (62 R621, R626, R627,
D26). -/
def Serial.settle (p : Serial) : Serial :=
  let p := if p.txEnabled then p
    else { p with stat := putBit (putBit p.stat 9 true) 10 true, busy := false, tx := [] }
  let p := if p.rxEnabled then p else { p with stat := putBit p.stat 8 false, rx := none }
  if p.txEnabled || p.rxEnabled then p else { p with div := 0 }

/-- Data bits of a frame (62 R621 WLGN, D27). -/
def Serial.wordBits (p : Serial) : Nat := 5 + (bits p.ctl 16 2 : BitVec 2).toNat

/-- Whether frames have a parity bit (62 R621 PMODE). -/
def Serial.hasParity (p : Serial) : Bool := bit p.ctl 21

/-- The parity bit of data levels: odd, even, forced to 1, forced to 0 (62 R621). -/
def Serial.parityOf (p : Serial) (d : List Bool) : Bool :=
  let odd := d.foldl (fun acc b => acc != b) false
  if bit p.ctl 20 then !bit p.ctl 19 else if bit p.ctl 19 then odd else !odd

/-- Stop bits of a frame (62 R621 STP). -/
def Serial.stopBits (p : Serial) : Nat := if bit p.ctl 18 then 2 else 1

/-- The levels of a frame in the order in which they are sent: start bit, data from the least significant bit on,
parity, stop bits (62 R626). -/
def Serial.frame (p : Serial) (d : Byte) : List Bool :=
  let data := (List.range p.wordBits).map fun k => d.getLsbD k
  [false] ++ data ++ (if p.hasParity then [p.parityOf data] else []) ++ List.replicate p.stopBits true

/-- The level on TXD (62 R626): Low for a break, else High in loopback and while nothing is sent. DESIGN CHOICE (log
35): a break also wins over TMODE = 00. -/
def Serial.txdLevel (p : Serial) : Bool :=
  if bit p.ctl 25 then false else if p.loop then true else p.tx.head?.getD true

/-- The level on DSR: Low where SPCT.DSR asserts it (62 R629). -/
def Serial.dsrLevel (p : Serial) : Bool := !bit p.ctl 24

/-- A store to SPTH (62 R623, R626). DESIGN CHOICE (log 35): with TMODE = 00, which holds THRE and TEMT at 1, the character
stays in the holding register but is never sent. -/
def Serial.writeHolding (p : Serial) (d : Byte) : Serial :=
  Serial.settle { p with thr := d, stat := putBit (putBit p.stat 9 false) 10 false }

/-- TxLoad (62 R626): whether it happens, and the port after it. DESIGN CHOICE (log 35): the start bit shows on TXD at
once and the baud divider runs on, so the start bit of a frame can be shorter than a bit time. -/
def Serial.txLoad (p : Serial) : Option Serial :=
  if p.txEnabled && !p.busy && !p.thre then
    some { p with tsr := p.thr, busy := true, tx := p.frame p.thr, stat := putBit p.stat 9 true }
  else none

/-- RxFrame (62 R627) of a frame received whole; `keepNew` chooses the character an overrun leaves (93 U31). -/
def Serial.receive (p : Serial) (d : Byte) (parityOk stopOk allLow keepNew : Bool) : Serial :=
  if p.rxEnabled then
    let overrun := p.rdr
    let st := if overrun then putBit p.stat 0 true else p.stat
    let st := if p.hasParity && !parityOk then putBit st 1 true else st
    let st := if stopOk then st else putBit st 2 true
    let st := if allLow then putBit st 3 true else st
    { p with stat := putBit st 8 true, rbr := if overrun && !keepNew then p.rbr else p.dataBits d }
  else p

/-- A byte from levels, the first of them bit 0. -/
def byteOfLevels (d : List Bool) : Byte := BitVec.ofNat 8 (d.foldr (fun b n => 2 * n + b.toNat) 0)

/-- The levels of a complete frame after its start bit, evaluated (62 R627). -/
def Serial.evaluate (p : Serial) (levels : List Bool) (keepNew : Bool) : Serial :=
  let data := levels.take p.wordBits
  let rest := levels.drop p.wordBits
  let parityOk := !p.hasParity || rest.head? == some (p.parityOf data)
  let stops := rest.drop (if p.hasParity then 1 else 0)
  p.receive (byteOfLevels data) parityOk (stops.all id) (!levels.any id) keepNew

/-- One bit time of the receiver (62 R627): a Low level starts a frame, whose levels then fill the shift register.
DESIGN CHOICE (log 35): so does a line that is still Low after a break or a Low stop bit, and where LOOP changes within a
frame the receiver keeps the levels it has and takes the rest from the other source. -/
def Serial.rxBit (p : Serial) (level keepNew : Bool) : Serial :=
  if !p.rxEnabled then p
  else
    match p.rx with
    | none => if level then p else { p with rx := some [] }
    | some got =>
      let got := got ++ [level]
      if p.wordBits + p.hasParity.toNat + p.stopBits ≤ got.length then Serial.evaluate { p with rx := none } got keepNew
      else { p with rx := some got }

/-- TxDone (62 R626). -/
def Serial.txDone (p : Serial) : Serial :=
  { p with busy := false, tx := [], stat := if p.thre then putBit p.stat 10 true else p.stat }

/-- One bit time of the transmitter: the next level of the frame, or its end. In loopback the receiver takes the
level that ends (62 R629). -/
def Serial.txBit (p : Serial) (keepNew : Bool) : Serial :=
  let q := if p.loop then p.rxBit (p.tx.head?.getD true) keepNew else p
  if !q.busy then q
  else
    match q.tx with
    | _ :: b :: r => { q with tx := b :: r }
    | _ => q.txDone

/-- UCLK periods in a bit time: 32 (BAUDDIV + 1) (62 R625). -/
def Serial.bitTime (p : Serial) : Nat := 32 * ((bits p.baud 0 16 : BitVec 16).toNat + 1)

/-- One UCLK period: the port after it, and whether a bit time of the transmitter ended. -/
def Serial.uclk (p : Serial) (keepNew : Bool) : Serial × Bool :=
  if !(p.txEnabled || p.rxEnabled) then (p, false)
  else if p.bitTime ≤ p.div + 1 then (Serial.txBit { p with div := 0 } keepNew, true)
  else ({ p with div := p.div + 1 }, false)

/-! ### Parallel port (62 R640-R647) -/

/-- PPCT.MODE is not 00. -/
def Parallel.enabled (p : Parallel) : Bool := bits p.ctl 8 2 != 0
/-- PPCT.DDIR: to the host. -/
def Parallel.toHost (p : Parallel) : Bool := bit p.ctl 10
/-- PPCT.DHH. -/
def Parallel.dhh (p : Parallel) : Bool := bit p.ctl 5
/-- PPCT.BRS. -/
def Parallel.brs (p : Parallel) : Bool := bit p.ctl 2
/-- PPCT.ARB. -/
def Parallel.arb (p : Parallel) : Bool := bit p.ctl 1
/-- PPCT.FWT. -/
def Parallel.fwt (p : Parallel) : Bool := bit p.ctl 30
/-- PPCT.DRQ replaced. -/
def Parallel.setDrq (p : Parallel) (b : Bool) : Parallel := { p with ctl := putBit p.ctl 15 b }
/-- PPCT.TRA replaced. -/
def Parallel.setTra (p : Parallel) (b : Bool) : Parallel := { p with ctl := putBit p.ctl 14 b }

/-- The TDELAY interval starts: TDELAY + 1 cycles from the host, TDELAY cycles to the host (62 R641). -/
def Parallel.startInterval (p : Parallel) : Parallel :=
  let d : BitVec 8 := bits p.ctl 16 8
  if !p.toHost then { p with tdelay := d, timing := true }
  else if d = 0 then { p with tdelay := 0, timing := false }
  else { p with tdelay := d - 1, timing := true }

/-- What the current conditions allow to happen next (62 R644 E4, R645 T2, T3, T5, T6); one transition. DESIGN CHOICE (log
36): to the host DRQ is raised, here and where the port is enabled (T0), with DHH = 1 as well. -/
def Parallel.advance (p : Parallel) (pins : Pins) : Parallel :=
  match p.phase with
  | .busy =>
    if p.dataRead && !pins.pstrobe && (p.arb || !p.timing) then
      if p.arb then Parallel.startInterval { p with phase := .ackTail }
      else Parallel.setTra { p with phase := .idle } false
    else p
  | .ackTail => if p.timing then p else Parallel.setTra { p with phase := .idle } false
  | .setup => if p.timing then p else { p with phase := .hostWait }
  | .hostWait =>
    if pins.pautofd && !pins.pstrobe then Parallel.startInterval { p with phase := .toAck } else p
  | .toAck =>
    if p.timing then p
    else if p.hostStrobed then Parallel.startInterval { p with phase := .hold }
    else { p with phase := .strobeWait }
  | .hold => if p.timing then p else Parallel.setDrq { p with phase := .idle } true
  | .idle | .strobed | .strobeWait => p

/-- As many transitions as can follow one event without time passing. -/
def Parallel.settle (p : Parallel) (pins : Pins) : Parallel :=
  ((((p.advance pins).advance pins).advance pins).advance pins).advance pins

/-- A request for a datum of the host: DRQ, and the count of handshakes since the last request starts again (62 R644
E2). -/
def Parallel.request (p : Parallel) : Parallel := { p.setDrq true with sinceRequest := 0 }

/-- With this handshake a request is due: FWT = 0, or it is the fourth since the last request (62 R644 E2). A read of
PPDT clears BCT (E3) and leaves that count alone. -/
def Parallel.requestDue (p : Parallel) : Bool := !p.fwt || p.sinceRequest == 3

/-- E2 (62 R644): PBUSY asserted, the interval started, the handshake counted, the request raised where it is due. -/
def Parallel.accept (p : Parallel) : Parallel :=
  let q := Parallel.startInterval
    { p with
      phase := .busy, bct := p.bct + 1, sinceRequest := p.sinceRequest + 1, dataRead := !p.requestDue }
  if p.requestDue then q.request else q

/-- PSTROBE rises (62 R644 E1, R645 T4). With DHH = 1 whether DRQ is raised is open (91 N46): `openDrq`. DESIGN CHOICE
(log 36): an edge during the PACK tail of ARB = 1 only sets TRA, which the end of the tail clears again, and its
handshake is lost; a second rising edge while PBUSY is asserted sets TRA, latches its datum (`latchData`) and counts no
handshake and raises no request; with DHH = 1 nothing but MODE = 00 resets TRA. -/
def Parallel.strobeRise (p : Parallel) (openDrq : Bool) : Parallel :=
  if !p.enabled then p
  else if p.toHost then
    match p.phase with
    | .toAck => { p.setTra false with hostStrobed := true }
    | .strobeWait => Parallel.startInterval { p.setTra false with hostStrobed := true, phase := .hold }
    | _ => p
  else
    let p := p.setTra true
    if p.dhh then (if openDrq then p.request else p)
    else if p.phase = .idle then (if p.brs then { p with phase := .strobed } else p.accept)
    else p

/-- PSTROBE falls (62 R644 E2 with BRS = 1). Where DHH was set since it rose, whether DRQ is raised is open here too
(91 N46). DESIGN CHOICE (log 36): the handshake that began with DHH = 0 goes on to its end, without its pins, and where
its request is due the count of handshakes starts again, be DRQ raised or not. -/
def Parallel.strobeFall (p : Parallel) (openDrq : Bool) : Parallel :=
  if p.enabled && !p.toHost && p.phase = .strobed then
    let q := p.accept
    if p.dhh && !openDrq then q.setDrq (bit p.ctl 15) else q
  else p

/-- The external latch takes what the host drives (62 R644 E1): on the rising edge of PSTROBE with BRS = 0; with BRS = 1
on the rising edge or else on the falling one, by a free choice. -/
def Parallel.latchData (p : Parallel) (rising choice : Bool) (d : Word) : Parallel :=
  if p.toHost then p
  else if rising then
    let take := !p.brs || choice
    { p with latch := if take then d else p.latch, latched := take }
  else if p.brs && !p.latched then { p with latch := d, latched := true }
  else p

/-- One cycle of the interval and FACK counters (62 R641, R642). DESIGN CHOICE (log 36): a FACK pulse has a counter of
its own, which TDELAYV does not show. -/
def Parallel.tick (p : Parallel) : Parallel :=
  let p := if p.timing then (if p.tdelay = 0 then { p with timing := false } else { p with tdelay := p.tdelay - 1 }) else p
  if bit p.ctl 6 then (if p.fack = 0 then { p with ctl := putBit p.ctl 6 false } else { p with fack := p.fack - 1 }) else p

/-- A read of PPDT (62 R644 E3). -/
def Parallel.readData (p : Parallel) : Parallel :=
  { p.setDrq false with bct := 0, dataRead := true }

/-- A write of PPDT (62 R645 T1). DESIGN CHOICE (log 36): one that comes while a transfer is under way starts the transfer
again, and a strobe already seen is forgotten. -/
def Parallel.writeData (p : Parallel) : Parallel :=
  let q := p.setDrq false
  if q.enabled && q.toHost then
    Parallel.startInterval { q.setTra true with phase := .setup, hostStrobed := false }
  else q

/-- MODE = 00 resets the port (62 R647, D26). DESIGN CHOICE (log 36): the TDELAY counter, of which the rule says that it
stops, is cleared, so that TDELAYV reads 0. -/
def Parallel.resetMachine (p : Parallel) : Parallel :=
  { (p.setDrq false).setTra false with
    phase := .idle, tdelay := 0, timing := false, bct := 0, sinceRequest := 0, dataRead := false,
    hostStrobed := false }

/-- A store to PPCT of the implemented writable bits `v` (62 R641, R645 T0, R647); a new FACK starts its interval.
DESIGN CHOICE (log 36): FACK = 1 written while a pulse is running lets that pulse run on. -/
def Parallel.writeControl (p : Parallel) (writable v : Word) : Parallel :=
  let q := { p with ctl := (p.ctl &&& ~~~writable) ||| (v &&& writable) }
  let d : BitVec 8 := bits q.ctl 16 8
  let q :=
    if bit q.ctl 6 && !bit p.ctl 6 then
      if q.toHost && d = 0 then { q with ctl := putBit q.ctl 6 false }
      else { q with fack := if q.toHost then d - 1 else d }
    else q
  if !q.enabled then q.resetMachine
  else if !p.enabled && q.toHost then q.setDrq true
  else q

/-- PBUSY is asserted (pin Low) (62 R646). -/
def Parallel.busyAsserted (p : Parallel) : Bool :=
  bit p.ctl 7 || p.toHost || (!p.dhh && p.phase == .busy)

/-- PACK is asserted (pin High) (62 R646). -/
def Parallel.ackAsserted (p : Parallel) : Bool :=
  bit p.ctl 6 ||
    (!p.dhh && ((p.phase == .busy && !p.arb) || p.phase == .ackTail || (p.phase == .toAck && p.timing)))

/-- PPST (62 R642). DESIGN CHOICE (log 36): BCT, which the rule defines for FWT = 1, reads 0 with FWT = 0.
With FWT = 1 it shows the count that a read of PPDT clears (62 R644 E3). -/
def Parallel.status (p : Parallel) (pins : Pins) : Word :=
  let w : Word := putBit 0 31 pins.pstrobe
  let w := putBits w 16 p.tdelay
  let w := putBits w 8 (if p.fwt then p.bct else 0)
  putBit (putBit w 7 (!p.busyAsserted)) 6 p.ackAsserted

/-! ### Video interface (62 R660-R668) -/

/-- VCT.MODE is not 00. -/
def Video.enabled (v : Video) : Bool := bits v.ctl 8 2 != 0
/-- VCT.DDIR: receiving. -/
def Video.receiving (v : Video) : Bool := bit v.ctl 10
/-- VCT.SDIR: shift left. -/
def Video.left (v : Video) : Bool := bit v.ctl 1
/-- VCT.PSIO: PSYNC is an output. -/
def Video.psio (v : Video) : Bool := bit v.ctl 5
/-- VCT.DRQ replaced. -/
def Video.setDrq (v : Video) (b : Bool) : Video := { v with ctl := putBit v.ctl 15 b }
/-- VCT.DRQ. -/
def Video.drq (v : Video) : Bool := bit v.ctl 15

/-- VCT.PSL as it reads (62 R661). -/
def Video.psl (v : Video) (pins : Pins) : Bool :=
  if v.psio then bit v.ctl 3 else pins.psync != bit v.ctl 4

/-- VCT as it reads. -/
def Video.control (v : Video) (pins : Pins) : Word := putBit v.ctl 3 (v.psl pins)

/-- The level on VDAT while it is an output (62 R665). -/
def Video.vdatLevel (v : Video) : Bool := v.dat != bit v.ctl 0

/-- The level PSYNC is driven to while it is an output: PSL xor PSI (62 R661, R667). -/
def Video.psyncLevel (v : Video) : Bool := bit v.ctl 3 != bit v.ctl 4

/-- An empty shift register takes the holding register (62 R665). -/
def Video.reload (v : Video) : Video :=
  if v.count = 0 && v.full then { v.setDrq true with shift := v.vdt, count := 32, full := false } else v

/-- The beginning of a page (62 R665). -/
def Video.pageStart (v : Video) : Video :=
  if v.enabled && !v.receiving then
    { v with topctr := bits v.top 0 12, leftctr := bits v.side 16 12, linectr := bits v.side 0 16, page := true }
  else v

/-- An active LSYNC transition (62 R665, R666); it is acted on five VCLK cycles later. DESIGN CHOICE (log 37): one that
comes while the last partial word of a line still waits for the holding register starts the new line all the same,
which then shifts into that word; one that comes before an earlier one is acted on replaces it; and one in the middle of
a received line drops the bits of the word begun and ends the sampling until it is acted on. -/
def Video.lineSync (v : Video) : Video :=
  if !v.enabled then v
  else if v.receiving then { v with linectr := bits v.side 0 16, count := 0, line := false, delay := 5 }
  else if v.page then { v with delay := 5 }
  else v

/-- VCLK periods from one video-clock transition to the next (62 R664). -/
def Video.clockPeriod (v : Video) : Nat :=
  let d := (bits v.ctl 11 4 : BitVec 4).toNat
  if d = 0 then 1 else 2 * d

/-- The divider at a VCLK, and whether a video-clock transition comes with it (62 R664). -/
def Video.divide (v : Video) : Video × Bool :=
  if v.clockPeriod ≤ v.div + 1 then ({ v with div := 0 }, true) else ({ v with div := v.div + 1 }, false)

/-- The end of a transmitted line (62 R665): what is left of its last word is dropped, which lets the shift register be
reloaded with the next line's first word, and LINECTR is set up for the next line. -/
def Video.endLine (v : Video) : Video :=
  Video.reload { v with
    count := 0, shift := 0, line := false, linectr := bits v.side 0 16 }

/-- LEFTCTR reloaded where the margin of a line ends (62 R665). -/
def Video.endMargin (v : Video) : Video := { v with margin := false, leftctr := bits v.side 16 12 }

/-- One video-clock transition of a transmitted line (62 R665); `openBit` is driven on underrun (93 U33). A word that is
sent makes place for the next one within the line; at the end of the line `endLine` does, so that a next word is not taken
into the line that ends. VDAT keeps the last bit until the next transition. -/
def Video.sendBit (v : Video) (openBit : Bool) : Video :=
  if v.margin then
    let w := { v with leftctr := v.leftctr - 1, dat := false }
    if v.leftctr ≤ 1 then w.endMargin else w
  else if v.linectr ≠ 0 then
    let b := if v.count = 0 then openBit else if v.left then bit v.shift 31 else bit v.shift 0
    let w := { v with
      dat := b, linectr := v.linectr - 1, count := v.count - 1,
      shift := if v.left then v.shift <<< 1 else v.shift >>> 1 }
    if w.linectr = 0 then { w.endLine with ended := true } else w.reload
  else { v.endLine with dat := false }

/-- The holding register takes a received word; an unread one leaves either (93 U33). -/
def Video.deliver (v : Video) (keepNew : Bool) : Video :=
  { v.setDrq true with vdt := if v.drq && !keepNew then v.vdt else v.shift, count := 0 }

/-- One video-clock transition of a received line (62 R666). A last partial word waits for the holding register. -/
def Video.takeBit (v : Video) (level keepNew : Bool) : Video :=
  if v.linectr = 0 then { v with line := false }
  else
    let b : Word := ofFlag (level != bit v.ctl 0)
    let w := { v with
      shift := if v.left then v.shift <<< 1 ||| b else v.shift >>> 1 ||| b <<< 31
      linectr := v.linectr - 1
      count := v.count + 1 }
    if w.count = 32 then
      let w := w.deliver keepNew
      if w.linectr = 0 then { w with line := false } else w
    else if w.linectr = 0 then
      if w.drq then { w with line := false, full := true } else Video.deliver { w with line := false } true
    else w

/-- The video-clock part of a VCLK transition; after the last bit of a line VDAT returns to the 0-bit level (62 R665). -/
def Video.lineTick (v : Video) (level openBit : Bool) : Video :=
  if !v.line && !v.ended then v
  else
    let d := v.divide
    if !d.2 then d.1
    else if !d.1.line then { d.1 with dat := false, ended := false }
    else if v.receiving then d.1.takeBit level openBit
    else Video.sendBit { d.1 with ended := false } openBit

/-- A line begins: the divider is initialised (62 R664) so that this VCLK is the line's first video-clock transition, on
which data are driven at once with LEFTCNT = 0 (62 R665). DESIGN CHOICE (log 37): so it is for a left margin and for a
received line. -/
def Video.beginLine (v : Video) : Video := { v with line := true, div := v.clockPeriod - 1 }

/-- LSYNC is acted on (62 R665, R666): the page ends, a line of the top margin passes, or a line begins. DESIGN CHOICE
(log 37): where a transmitted line still runs, it begins again, left margin included, with the count of bits that is
left. -/
def Video.actOnLine (v : Video) : Video :=
  if v.receiving then v.beginLine
  else if v.count = 0 then { v with page := false, line := false, dat := false, ended := false }
  else if v.topctr ≠ 0 then { v with topctr := v.topctr - 1 }
  else if v.leftctr = 0 then v.beginLine.endMargin
  else { v.beginLine with margin := true }

/-- One active VCLK transition (62 R665, R666). A line that runs goes on while a next LSYNC waits to be acted on. -/
def Video.vclk (v : Video) (level openBit : Bool) : Video :=
  if !v.enabled then v
  else if v.delay = 0 then v.lineTick level openBit
  else if v.delay = 1 then (Video.actOnLine { v with delay := 0 }).lineTick level openBit
  else Video.lineTick { v with delay := v.delay - 1 } level openBit

/-- PSYNC and LSYNC sampled on an active VCLK transition (62 R661 CLKI): the transitions that the polarity bits call
active start a page and a line. DESIGN CHOICE (log 37): where both fall on the same VCLK transition the page starts first,
so that this LSYNC is already the first of the page; 62 R665 gives no order. -/
def Video.sample (v : Video) (psync lsync : Bool) : Video :=
  let w := { v with psyncSeen := psync, lsyncSeen := lsync }
  let w := if !v.psio && psync != v.psyncSeen && psync != bit v.ctl 4 then w.pageStart else w
  if lsync != v.lsyncSeen && lsync != bit v.ctl 2 then w.lineSync else w

/-- A transition of VCLK: VDAT, PSYNC and LSYNC are driven or sampled on the one that CLKI selects (62 R661). -/
def Video.clock (v : Video) (pins : Pins) (rising level openBit : Bool) : Video :=
  if rising = bit v.ctl 7 then v
  else
    let w := (v.vclk level openBit).sample pins.psync pins.lsync
    { w with psyncOut := w.psyncLevel }

/-- A read of VDT (62 R662, R666). -/
def Video.readData (v : Video) : Video :=
  let w := v.setDrq false
  if w.receiving && w.full then { w.setDrq true with vdt := w.shift, full := false, count := 0 } else w

/-- A write of VDT (62 R662, R665). DESIGN CHOICE (log 37): a word written while MODE = 00 is kept in VDT but does not
mark the holding register full, so it is never sent; and one written while receiving resets DRQ and stays in VDT until a
received word replaces it, while a last partial word that waits goes on waiting for a read. -/
def Video.writeData (v : Video) (d : Word) : Video :=
  let w := { v.setDrq false with vdt := d }
  if w.enabled && !w.receiving then Video.reload { w with full := true } else w

/-- MODE = 00 resets the interface (62 R668, D26). -/
def Video.resetMachine (v : Video) : Video :=
  { v.setDrq false with
    full := false, shift := 0, count := 0, topctr := 0, leftctr := 0, linectr := 0, page := false, line := false,
    margin := false, delay := 0, div := 0, dat := false, ended := false }

/-- A store to VCT (62 R661, R665, R667, R668). DESIGN CHOICE (log 37): PSL is written where the stored word itself has
PSIO = 1. -/
def Video.writeControl (v : Video) (pins : Pins) (d : Word) : Video :=
  let writable : Word := if bit d 5 then 0x7FBF else 0x7FB7
  let w := { v with ctl := (v.ctl &&& ~~~writable) ||| (d &&& writable) }
  if !w.enabled then w.resetMachine
  else
    let w := if !v.enabled && !w.receiving then w.setDrq true else w
    if w.psio && bit w.ctl 3 && !v.psl pins then w.pageStart else w

end Sys2Proof.Machine
end

