-- ==== Sys2Proof/Machine/PeriphRegs.lean ====
section
/-! DEFINITION. The internal peripheral registers as loads, stores and DMA see them (20 R112, R113, 61 R546-R605,
62 R621-R662): addresses, implemented bits, read and write side effects. -/

namespace Sys2Proof.Machine

/-! ### Names (20 R112) -/

/-- The registers of the internal peripheral region. -/
inductive PReg where
  | rmct | rmcf | drct | drcf
  | drm0 | drm1 | drm2 | drm3
  | pict0 | pict1 | ict
  | dmct0 | dmad0 | dmcn0 | tcn0
  | dmct1 | dmad1 | dmcn1 | tad0
  | spct | spst | spth | sprb | baud
  | ppct | ppdt | ppst
  | poct | pin | pout | poen
  | vct | top | side | vdt
  deriving DecidableEq, Repr

/-- Word offsets of the registers (20 R112). -/
def pregTable : List (Nat × PReg) :=
  [ (0x00, .rmct), (0x04, .rmcf), (0x08, .drct), (0x0C, .drcf),
    (0x10, .drm0), (0x14, .drm1), (0x18, .drm2), (0x1C, .drm3),
    (0x20, .pict0), (0x24, .pict1), (0x28, .ict),
    (0x30, .dmct0), (0x34, .dmad0), (0x38, .dmcn0), (0x3C, .tcn0),
    (0x40, .dmct1), (0x44, .dmad1), (0x48, .dmcn1), (0x70, .tad0),
    (0x80, .spct), (0x84, .spst), (0x88, .spth), (0x8C, .sprb), (0x90, .baud),
    (0xC0, .ppct), (0xC4, .ppdt), (0xC8, .ppst),
    (0xD0, .poct), (0xD4, .pin), (0xD8, .pout), (0xDC, .poen),
    (0xE0, .vct), (0xE4, .top), (0xE8, .side), (0xEC, .vdt) ]

/-- The register at an offset of the table. -/
def lookupPreg : List (Nat × PReg) → Nat → Option PReg
  | [], _ => none
  | (o, r) :: t, off => if o = off then some r else lookupPreg t off

/-- The register an address of the region names: the alternate addresses exactly, the others by addr[7:2]
(20 R103, R112); PICT1 is reserved on the Am29205. -/
def pregOf (v : Variant) (a : Word) : Option PReg :=
  let off := (bits a 0 8).toNat
  if off = 0x36 then some .tad0
  else if off = 0x3A then some .tcn0
  else if off = 0xC1 then some .ppst
  else
    match lookupPreg pregTable (off / 4 * 4) with
    | some .pict1 => if v = .am29200 then some .pict1 else none
    | r => r

/-! ### Implemented bits -/

/-- Bits a store can write on the Am29200 (61 R546-R605, 62 R621-R662). -/
def writeMask200 : PReg → Word
  | .rmct => 0xFBE3E3E3
  | .rmcf | .drcf => 0xFFFFFFFF
  | .drct => 0xDCCC81FF
  | .drm0 | .drm1 | .drm2 | .drm3 => 0x80FF00FF
  | .pict0 => 0x9F9F9F9F
  | .pict1 => 0x9F9F0000
  | .ict => 0
  | .dmct0 => 0x9FF803F3
  | .dmct1 => 0x9FF803E3
  | .dmad0 | .dmad1 => 0xFFFFFFFF
  | .dmcn0 | .dmcn1 | .tcn0 | .tad0 => 0x00FFFFFF
  | .spct => 0x073F0307
  | .spst => 0x0000000F
  | .spth => 0x000000FF
  | .sprb => 0
  | .baud => 0x0000FFFF
  | .ppct => 0x40FF07E6
  | .ppdt => 0xFFFFFFFF
  | .ppst => 0
  | .poct => 0xFFFFFFFF
  | .pin => 0
  | .pout | .poen => 0x0000FFFF
  | .vct => 0x00007FBF
  | .top => 0x00000FFF
  | .side => 0x0FFFFFFF
  | .vdt => 0xFFFFFFFF

/-- Bits that are reserved on the Am29205 only (61 R546, R556, R570-R573, R601, R605, 62 R621, R641). -/
def reserved205 : PReg → Word
  | .rmct => 0x808080E3
  | .pict0 => 0x0000FFFF
  | .dmct0 => 0x9F380042
  | .dmct1 => 0x00000042
  | .dmad0 => 0xFF000000
  | .spct => 0x01000000
  | .ppct => 0x40000000
  | .poct | .pout | .poen => 0x000000FF
  | _ => 0

/-- Bits a store can write. -/
def writeMask (v : Variant) (r : PReg) : Word :=
  if v = .am29200 then writeMask200 r else writeMask200 r &&& ~~~(reserved205 r)

/-- ASEL3 names addresses that another ROM bank has too, which the Am29205 does not allow (00 R6, 61 R547). -/
def bank3Overlaps (cfg : Word) : Bool := (List.range 3).any (banksMeet cfg 3)

/-- A write the spec does not define (93 U30): an Am29205-reserved field not zero, an overlapping ASEL3 there (00 R6),
IRM14-IRM8 = 11. -/
def reservedWrite (v : Variant) (r : PReg) (d : Word) : Bool :=
  (v == .am29205 && ((d &&& reserved205 r) != 0 || (r == .rmcf && bank3Overlaps d))) ||
    (r == .poct && (List.range 7).any fun k => (bits d (16 + 2 * k) 2 : BitVec 2) == 3)

/-- A serial or video configuration changed while the unit stays enabled (93 U32), or the parallel port's direction
changed with MODE not 00 (62 R641). DESIGN CHOICE (log 37): SDIR, which 93 U32 does not name, may change and acts at
once. -/
def enabledChange (s : State) (r : PReg) (d : Word) : Bool :=
  match r with
  | .spct =>
    let enabled := (s.serial.txEnabled && (bits d 8 2 : BitVec 2) != 0) ||
      (s.serial.rxEnabled && (bits d 0 2 : BitVec 2) != 0)
    enabled && (bits (s.serial.ctl ^^^ d) 16 6 : BitVec 6) != 0
  | .baud => (s.serial.txEnabled || s.serial.rxEnabled) && (d &&& 0xFFFF) != s.serial.baud
  | .ppct => s.pport.enabled && bit s.pport.ctl 10 != bit d 10
  | .vct => s.video.enabled && (bits d 8 2 : BitVec 2) != 0 && ((s.video.ctl ^^^ d) &&& 0x7CB5) != 0
  | _ => false

/-! ### DMA control writes (61 R604, R606, R610) -/

/-- A store to DMCTx: a changed DRM clears the latched request. -/
def DmaChannel.writeControl (c : DmaChannel) (mask d : Word) : DmaChannel :=
  let v := d &&& mask
  { c with ctl := v, latch := if (bits v 20 2 : BitVec 2) = bits c.ctl 20 2 then c.latch else false }

/-- The level of a DREQ line that DRM calls active, or that its active transition leads to (61 R601, R606). -/
def dreqActive (drm : BitVec 2) (level : Bool) : Bool :=
  if drm = 0 || drm = 2 then !level else level

/-- A store to TAD0 (61 R610). -/
def State.writeTailAddress (s : State) (d : Word) : State :=
  { s with
    tailAddr := bits d 0 24
    dma0 := { s.dma0 with ctl := putBit (putBit (putBit s.dma0.ctl 4 true) 0 false) 1 false } }

/-! ### Reads and writes -/

/-- A value read together with the state after the read. -/
abbrev ReadResult := Host.Outcome (Word × State) Fault Refusal

/-- The width of an access of the parallel-port latch: on the Am29205 always a byte (62 R649). -/
def latchBytes (v : Variant) (bytes : Nat) : Nat := if v = .am29205 then 1 else bytes

/-- What the parallel-port latch returns (62 R643): the datum the host last strobed in; on the Am29205 its byte, the
other bits open. -/
def latchDatum (s : State) : Word :=
  if s.variant = .am29205 then putBits (s.freeWord 6) 0 (bits s.pport.latch 0 8 : Byte) else s.pport.latch

/-- A read of a register (20 R113) and its side effects; `bytes` is the width of the access. Slot 6 gives the datum
where it is open: TAD0, TCN0 (93 U15), SPRB with RDR = 0 (93 U31), the upper bits of PPDT on the Am29205. -/
def readPregRaw (r : PReg) (bytes : Nat) (s : State) : Word × State :=
  match r with
  | .rmct => (s.rmct, s)
  | .rmcf => (s.rmcf, s)
  | .drct => (s.drct, s)
  | .drcf => (s.drcf, s)
  | .drm0 => (s.drm0, s)
  | .drm1 => (s.drm1, s)
  | .drm2 => (s.drm2, s)
  | .drm3 => (s.drm3, s)
  | .pict0 => (s.pict0, s)
  | .pict1 => (s.pict1, s)
  | .ict => (s.ict &&& ictMask, s)
  | .dmct0 => (s.dma0.ctl, s)
  | .dmad0 => (s.dma0.addr, s)
  | .dmcn0 => (s.dma0.cnt, s)
  | .dmct1 => (s.dma1.ctl, s)
  | .dmad1 => (s.dma1.addr, s)
  | .dmcn1 => (s.dma1.cnt, s)
  | .tcn0 | .tad0 => (s.freeWord 6, s)
  | .spct => (s.serial.ctl, s)
  | .spst => (putBit s.serial.stat 4 (s.pins.dtr && s.variant == .am29200), s)
  | .spth => (zext s.serial.thr, s)
  | .sprb =>
    (if s.serial.rdr then zext s.serial.rbr else s.freeWord 6 &&& 0xFF,
      { s with serial := { s.serial with stat := putBit s.serial.stat 8 false } })
  | .baud => (s.serial.baud, s)
  | .ppct => (putBit s.pport.ctl 0 s.pins.pautofd, s)
  | .ppdt =>
    (latchDatum s,
      { s with
        pport := s.pport.readData.settle s.pins
        outbox := .latchRead (latchBytes s.variant bytes) :: s.outbox })
  | .ppst => (s.pport.status s.pins, s)
  | .poct => (s.poct, s)
  | .pin => (zext (pinField s), s)
  | .pout => (s.pout, s)
  | .poen => (s.poen, s)
  | .vct => (s.video.control s.pins, s)
  | .top => (s.video.top, s)
  | .side => (s.video.side, s)
  | .vdt => (s.video.vdt, { s with video := s.video.readData })

/-- The levels of the output pins that software moves, and how the outside sees a change (62 R626, R629, R665, R667).
PSYNC and VDAT count as High while they are inputs; DSR exists on the Am29200 only. -/
def pinOutputs : List ((State → Bool) × (Bool → Output)) :=
  [ (fun s => s.serial.txdLevel, Output.txd),
    (fun s => s.serial.dsrLevel || s.variant == .am29205, Output.dsr),
    (fun s => s.video.psyncOut || !s.video.psio, Output.psync),
    (fun s => s.video.vdatLevel || s.video.receiving, Output.vdat) ]

/-- Changes of output pins between two states shown to the outside. -/
def announce (old new : State) : State :=
  { new with
    outbox := pinOutputs.foldl (fun acc p => if p.1 new != p.1 old then p.2 (p.1 new) :: acc else acc) new.outbox }

/-- DRQ of the video interface is 1 after an access of VDT, which reset it: an edge even where it was 1 before (62 R662,
R663). -/
def latchVideo (r : PReg) (s : State) : State :=
  if r = .vdt ∧ s.video.drq ∧ (bits s.video.ctl 8 2 : BitVec 2) = 1 then { s with ict := putBit s.ict 27 true } else s

/-- What follows an access of a register: interrupts latched, output pins moved. -/
def afterAccess (r : PReg) (old new : State) : State := latchVideo r (announce old (latchIrqs old new))

/-- A read with the interrupts it may latch. -/
def readPreg (r : PReg) (bytes : Nat) (s : State) : Word × State :=
  let p := readPregRaw r bytes s
  (p.1, afterAccess r s p.2)

/-- The stored word after a write of the implemented bits. -/
def stored (s : State) (r : PReg) (d : Word) : Word := d &&& writeMask s.variant r

/-- A write of a register (20 R113) and its side effects. -/
def writePregRaw (r : PReg) (bytes : Nat) (d : Word) (s : State) : State :=
  let v := stored s r d
  match r with
  | .rmct => { s with rmct := v }
  | .rmcf => { s with rmcf := v }
  | .drct => { s with drct := v }
  | .drcf => { s with drcf := v }
  | .drm0 => { s with drm0 := v }
  | .drm1 => { s with drm1 := v }
  | .drm2 => { s with drm2 := v }
  | .drm3 => { s with drm3 := v }
  | .pict0 => { s with pict0 := v }
  | .pict1 => { s with pict1 := v }
  | .ict => { s with ict := s.ict &&& ~~~d }
  | .dmct0 => { s with dma0 := s.dma0.writeControl (writeMask s.variant .dmct0) d }
  | .dmad0 => { s with dma0 := { s.dma0 with addr := v } }
  | .dmcn0 => { s with dma0 := { s.dma0 with cnt := v } }
  | .dmct1 => { s with dma1 := s.dma1.writeControl (writeMask s.variant .dmct1) d }
  | .dmad1 => { s with dma1 := { s.dma1 with addr := v } }
  | .dmcn1 => { s with dma1 := { s.dma1 with cnt := v } }
  | .tcn0 => { s with tailCount := bits d 0 24 }
  | .tad0 => s.writeTailAddress d
  | .spct => { s with serial := Serial.settle { s.serial with ctl := v } }
  | .spst => { s with serial := { s.serial with stat := (s.serial.stat &&& 0x700) ||| v } }
  | .spth => { s with serial := s.serial.writeHolding (bits d 0 8) }
  | .sprb | .ppst | .pin => s
  | .baud => { s with serial := { s.serial with baud := v } }
  | .ppct => { s with pport := s.pport.writeControl (writeMask s.variant .ppct) d }
  | .ppdt =>
    { s with
      pport := s.pport.writeData.settle s.pins
      outbox := .latchWrite (latchBytes s.variant bytes) d :: s.outbox }
  | .poct => { s with poct := v }
  | .pout => { s with pout := v }
  | .poen => { s with poen := v }
  | .vct => { s with video := s.video.writeControl s.pins d }
  | .top => { s with video := { s.video with top := v } }
  | .side => { s with video := { s.video with side := v } }
  | .vdt => { s with video := s.video.writeData d }

/-- A write with the interrupts it latches, for POCT with open edges (91 N43). A line that POUT or POEN drives is sampled
like any other (61 R575, R577). -/
def writePreg (r : PReg) (bytes : Nat) (d : Word) (s : State) : State :=
  let t := writePregRaw r bytes d s
  afterAccess r s (if r = .poct then latchEdges (pokedEdge s t) t else t)

/-- A load from the region. -/
def periphLoad (a : Word) (bytes : Nat) (s : State) : ReadResult :=
  match pregOf s.variant a with
  | none => .fault (.unimplementedAddress a)
  | some r => .next (readPreg r bytes s)

/-- A store to the region: the whole register takes the replicated word (20 R113, D9). -/
def periphStore (a : Word) (bytes : Nat) (d : Word) (s : State) : Result :=
  match pregOf s.variant a with
  | none => .fault (.unimplementedAddress a)
  | some r =>
    if reservedWrite s.variant r d then .refused (.reservedField a)
    else if enabledChange s r d then .refused (.unitEnabledChange a)
    else .next (writePreg r bytes d s)

end Sys2Proof.Machine
end

