-- ==== Sys2Proof/Machine/Agents.lean ====
section
/-! DEFINITION. The moves of the agents other than the core: DMA transfers, pin changes, port events, the external
master, the timer, the test access port, RESET and WARN (61 R600-R617, 62 R620-R668, R683-R686, 70 R700, 60 R484,
R486). -/

namespace Sys2Proof.Machine

/-! ### DMA (61 R600-R614) -/

/-- Internal peripherals that can request a channel, by their data register (61 R607, R613). -/
inductive Requester where
  | toLatch
  | fromLatch
  | transmit
  | receive
  | videoOut
  | videoIn
  deriving DecidableEq, Repr

/-- The data register of a requester. -/
def Requester.reg : Requester → PReg
  | .toLatch | .fromLatch => .ppdt
  | .transmit => .spth
  | .receive => .sprb
  | .videoOut | .videoIn => .vdt

/-- Whether the requester takes data from DRAM (RW = 1). -/
def Requester.takes : Requester → Bool
  | .toLatch | .transmit | .videoOut => true
  | .fromLatch | .receive | .videoIn => false

/-- Whether a transfer width in bytes suits the register (61 R613). -/
def Requester.widthOk (v : Variant) : Requester → Nat → Bool
  | .toLatch, n | .fromLatch, n => n == 1 || (n == 4 && v == .am29200)
  | .transmit, n | .receive, n => n == 1
  | .videoOut, n | .videoIn, n => n == 4

/-- Whether its data-request condition holds. -/
def Requester.requests (r : Requester) (s : State) : Bool :=
  match r with
  | .toLatch | .fromLatch => bit s.pport.ctl 15
  | .transmit => s.serial.thre
  | .receive => s.serial.rdr
  | .videoOut | .videoIn => s.video.drq

/-- The internal peripherals whose MODE, TMODE or RMODE selects channel x. -/
def requestersOf (s : State) (x : Nat) : List Requester :=
  let code : BitVec 2 := if x = 0 then 2 else 3
  (if bits s.pport.ctl 8 2 = code then [if s.pport.toHost then Requester.toLatch else .fromLatch] else []) ++
  (if bits s.serial.ctl 8 2 = code then [Requester.transmit] else []) ++
  (if bits s.serial.ctl 0 2 = code then [Requester.receive] else []) ++
  (if bits s.video.ctl 8 2 = code then [if s.video.receiving then Requester.videoIn else .videoOut] else [])

/-- A channel. -/
def State.channel (s : State) (x : Nat) : DmaChannel := if x = 0 then s.dma0 else s.dma1

/-- A channel replaced. -/
def State.setChannel (s : State) (x : Nat) (c : DmaChannel) : State :=
  if x = 0 then { s with dma0 := c } else { s with dma1 := c }

/-- Whether channel x has an external side (61 R614). -/
def hasExternal (v : Variant) (x : Nat) : Bool := v == .am29200 || x == 1

/-- The external request of channel x (61 R607): the latch, or the level in a level mode. -/
def externalRequest (s : State) (x : Nat) : Bool :=
  let drm : BitVec 2 := bits (s.channel x).ctl 20 2
  hasExternal s.variant x &&
    ((s.channel x).latch || ((drm == 0 || drm == 1) && dreqActive drm (s.pins.dreq.getLsbD x)))

/-- Whether channel x is enabled and has a request, internal or external (61 R607, R608). -/
def channelReady (s : State) (x : Nat) : Bool :=
  bit (s.channel x).ctl 7 && (externalRequest s x || (requestersOf s x).any fun r => r.requests s)

/-- A DMA channel has the bus before the core and an external master (20 R131, 61 R617). -/
def busTaken (s : State) : Bool := channelReady s 0 || channelReady s 1

/-- The OPT code of a DW code (61 R601). -/
def dwOpt (dw : BitVec 2) : BitVec 3 := if dw = 1 then 1 else if dw = 2 then 2 else 0

/-- By how much DRAMADDR moves (61 R602). -/
def dwStep (dw : BitVec 2) : BitVec 24 := if dw = 1 then 1 else if dw = 2 then 2 else if dw = 0 then 4 else 0

/-- The channel after a transfer: address and count moved (61 R608). -/
def DmaChannel.stepped (c : DmaChannel) : DmaChannel :=
  let a : BitVec 24 := bits c.addr 0 24
  let d := dwStep (bits c.ctl 22 2)
  { c with
    addr := putBits c.addr 0 (if bit c.ctl 9 then a + d else a - d)
    cnt := zext ((bits c.cnt 0 24 : BitVec 24) - 1) }

/-- Terminate (61 R609), with QueueAdvance (61 R610) for channel 0. -/
def terminate (s : State) (x : Nat) (count tdma : Bool) : State :=
  let c := s.channel x
  let s :=
    if x = 0 && bit c.ctl 4 then
      s.setChannel 0 { c with
        addr := putBits c.addr 0 s.tailAddr, cnt := zext s.tailCount, ctl := putBit c.ctl 4 false }
    else s.setChannel x { c with ctl := putBit c.ctl 7 false }
  let c := s.channel x
  let ctl := if count then putBit c.ctl 0 true else c.ctl
  s.setChannel x { c with ctl := if tdma then putBit ctl 1 true else ctl }

/-- Address, count and termination after the data have moved (61 R608, R609). -/
def afterTransfer (s : State) (x : Nat) (external : Bool) : State :=
  let c := s.channel x
  let t := s.setChannel x { c.stepped with latch := false }
  let count := bit c.ctl 5 && (bits c.cnt 0 24 : BitVec 24) == 0
  let tdma := bit c.ctl 6 && external && s.pins.tdma
  if count || tdma then terminate t x count tdma else t

/-- DRAM bytes stored by an agent other than the core. -/
def State.storeAt (s : State) (opt : BitVec 3) (a v : Word) : State :=
  { s with mem := Memory.putBytes s.mem (cellKey (accessBase opt a)) (storeBytes opt v) }

/-- One transfer with the DRAM side known to exist (61 R608): `a` is its address. -/
def moveData (s : State) (x : Nat) (opt : BitVec 3) (a : Word) (req : Option Requester) : State :=
  let c := s.channel x
  let n := optBytes opt
  let per : Byte := if hasExternal s.variant x then bits c.addr 24 8 else 0
  let acs := bit c.ctl 19
  let datum := selectData opt false a (wordAt s a)
  match req with
  | some r =>
    if r.takes then writePreg r.reg n datum s
    else
      let p := readPreg r.reg n s
      p.2.storeAt opt a p.1
  | none =>
    if bit c.ctl 8 then { s with outbox := .dmaWrite x acs per n datum :: s.outbox }
    else State.storeAt { s with outbox := .dmaRead x acs per n :: s.outbox } opt a (s.freeWord 6)

/-- DmaTransfer (61 R608) of a ready channel. An internal requester together with another one, internal or external, is
outside the spec (93 U28). -/
def dmaTransfer (s : State) (x : Nat) : Result :=
  let c := s.channel x
  let dw : BitVec 2 := bits c.ctl 22 2
  let opt := dwOpt dw
  let a : Word := 0x40000000 + zext (bits c.addr 0 24 : BitVec 24)
  let reqs := requestersOf s x
  let matching := reqs.all fun r => r.takes == bit c.ctl 8 && r.widthOk s.variant (optBytes opt)
  let wide := reqs.isEmpty && s.variant == .am29205 && opt == 0
  if s.variant = .am29205 && dw = 3 then .refused (.reservedField 0x80000030)
  else if 1 < reqs.length || !matching || wide || (!reqs.isEmpty && externalRequest s x) then
    .refused (.dmaRequester x)
  else if unaligned opt a then .refused (.dmaMisaligned x)
  else
    match locateDram s a with
    | .dram _ _ =>
      let t := moveData s x opt a reqs.head?
      let u := afterTransfer t x reqs.isEmpty
      .next { latchIrqs t u with flight := none, free := s.free + freeSlots }
    | .reservedCode => .refused (.reservedField a)
    | _ => .fault (.unimplementedAddress a)

/-- One transfer of the ready channel with the higher priority (20 R131). -/
def dmaMove (s : State) : Result :=
  if channelReady s 0 then dmaTransfer s 0
  else if channelReady s 1 then dmaTransfer s 1
  else .next s

/-! ### Pins -/

/-- The request latch after a DREQ line moved (61 R606). -/
def DmaChannel.sense (c : DmaChannel) (old new : Bool) : DmaChannel :=
  let drm : BitVec 2 := bits c.ctl 20 2
  if !dreqActive drm old && dreqActive drm new then { c with latch := true } else c

/-- The input pins take new levels: DREQ latches, WARN edge, parallel-port edges and data (60 R480, R484, 61 R606,
62 R644, R645). PIO, PSYNC and LSYNC levels are sampled later (61 R577, 62 R661). -/
def pinsMove (p : Pins) (s : State) : State :=
  let old := s.pins
  let t := { s with
    pins := p
    warnLatch := s.warnLatch || (s.variant == Variant.am29200 && p.warn && !old.warn)
    dma0 := if hasExternal s.variant 0 then s.dma0.sense (old.dreq.getLsbD 0) (p.dreq.getLsbD 0) else s.dma0
    dma1 := s.dma1.sense (old.dreq.getLsbD 1) (p.dreq.getLsbD 1) }
  let port :=
    if p.pstrobe && !old.pstrobe then (t.pport.latchData true (s.freeBool 1) p.hostData).strobeRise (s.freeBool 0)
    else if !p.pstrobe && old.pstrobe then (t.pport.latchData false (s.freeBool 1) p.hostData).strobeFall (s.freeBool 0)
    else t.pport
  latchIrqs s { t with pport := port.settle p, free := s.free + freeSlots }

/-! ### External master (61 R615) -/

/-- ROM bank x is accessed without wait states (61 R546): WSx = 00 and no burst mode, which has one at least. -/
def zeroWait (rmct : Word) (x : Nat) : Bool := bits rmct (24 - 8 * x) 2 == 0#2 && !bit rmct (31 - 8 * x)

/-- One word read or written through GREQ/GACK; only 32-bit banks of ROM and DRAM, without mapping, and ROM with wait
states. DESIGN CHOICE (log 41): address bits 1-0 are ignored. -/
def masterMove (a : Word) (data : Option Word) (s : State) : Result :=
  let access (writable : Bool) : Result :=
    match data with
    | none =>
      .next { s with flight := none, outbox := .masterRead (wordAligned a) (wordAt s a) :: s.outbox }
    | some d => .next { (if writable then s.storeAt 0 a d else s) with flight := none }
  if s.variant = .am29205 then .next s
  else
    match region s.variant a with
    | .rom =>
      match locateRom s a with
      | .rom x w =>
        if w ≠ 32 ∨ zeroWait s.rmct x then .refused (.masterUnsupported a) else access (s.romWritable.getLsbD x)
      | .reservedCode => .refused (.reservedField a)
      | _ => .fault (.unimplementedAddress a)
    | .dram =>
      match locateDram s a with
      | .dram _ w => if w ≠ 32 then .refused (.masterUnsupported a) else access true
      | .reservedCode => .refused (.reservedField a)
      | _ => .fault (.unimplementedAddress a)
    | _ => .fault (.unimplementedAddress a)

/-! ### The timer (60 R486) -/

/-- One processor cycle of the timer, on TMC and TMR. -/
def timerTick (tmc tmr : Word) : Word × Word :=
  let tcv : BitVec 24 := bits tmc 0 24
  if tcv = 0 then
    (zext (bits tmr 0 24 : BitVec 24), putBit (if bit tmr 25 then putBit tmr 26 true else tmr) 25 true)
  else (zext (tcv - 1), tmr)

/-- Several cycles. -/
def timerTicks : Nat → Word × Word → Word × Word
  | 0, p => p
  | n + 1, p => timerTicks n (timerTick p.1 p.2)

/-- The timer after a core step: at least one cycle, their number free (92 CYCLES). -/
def advanceTimer (s : State) : State :=
  let p := timerTicks (Config.extraCycles s.free + 1) (s.tmc, s.tmr)
  { s with tmc := p.1, tmr := p.2 }

/-! ### The test access port (62 R683-R686) -/

/-- Conditions that STAT2-STAT0 report (62 R686). -/
inductive StatCondition where
  | haltOrStep
  | vectorFetch
  | loadTestOrFreeze
  | branchFetch
  | dataAccess
  | instrAccess
  | peripheralAccess
  | idle
  deriving DecidableEq, Repr

/-- The code of a condition. -/
def StatCondition.code : StatCondition → BitVec 3
  | .haltOrStep => 0
  | .vectorFetch => 1
  | .loadTestOrFreeze => 2
  | .branchFetch => 3
  | .dataAccess => 4
  | .instrAccess => 5
  | .peripheralAccess => 6
  | .idle => 7

/-- A condition an executing core may be in on the sampled cycle, by a free code: which one is cycle timing. -/
def busCondition (code : BitVec 3) : StatCondition :=
  if code = 1 then .vectorFetch
  else if code = 3 then .branchFetch
  else if code = 4 then .dataAccess
  else if code = 5 then .instrAccess
  else if code = 6 then .peripheralAccess
  else .idle

/-- The core is inside a step: it executes, or a multiple is under way in a step of the debug host (62 R688, R689). -/
def State.inStep (s : State) : Bool := s.mode == .executing || s.multiple.isSome

/-- STAT2-STAT0 (62 R686-R690): those of the bus within a step, also one of the Step mode; Halt and Step mode show 010
instead of 000 with FZ = 1, a core in Wait mode is idle. -/
def statCondition (s : State) : StatCondition :=
  if s.multiple.isSome then busCondition (bits (s.freeWord 0) 0 3)
  else
    match s.mode with
    | .halt | .step => if s.fz || s.dbg.forced then .loadTestOrFreeze else .haltOrStep
    | .loadTest => .loadTestOrFreeze
    | .executing => if s.wm then .idle else busCondition (bits (s.freeWord 0) 0 3)

/-- Instructions of the test access port (62 R683). -/
inductive TapInstr where
  | extest
  | bypass
  | ictest2
  | intest
  | sample
  | ictest1
  deriving DecidableEq, Repr

/-- What a code selects: the preloaded value 001 and the reserved 011 act as BYPASS. -/
def tapInstr (code : BitVec 3) : TapInstr :=
  if code = 0 then .extest
  else if code = 2 then .ictest2
  else if code = 4 then .intest
  else if code = 5 then .sample
  else if code = 6 then .ictest1
  else .bypass

/-- The instruction in effect. -/
def State.tapInstr (s : State) : TapInstr := Machine.tapInstr s.dbg.tap

/-- The ID-bus cells as captured: the word an OPT = 110 store holds there until the next step (62 R691); what else is on
the bus is not given. -/
def idCells (s : State) : Word := if s.inStep then s.freeWord 1 else s.dbg.scanOut.getD (s.freeWord 1)

/-- What the debug host sees of a capture (62 R684): STAT under the instructions that leave the outputs to the
processor, the ID-bus cells under ICTEST2, the Bypass Register. EXTEST and INTEST belong to a board-test model
(62 R695). -/
def tapCapture (s : State) : List Output :=
  match s.tapInstr with
  | .bypass => [.tapBypass false]
  | .ictest1 | .sample => [.stat (statCondition s).code]
  | .ictest2 => [.tapIdCells (idCells s), .stat (statCondition s).code]
  | .extest | .intest => []

/-! ### All moves -/

/-- A serial event with the interrupts it may latch and the output pins it moves. -/
def serialMove (s : State) (p : Serial) : State :=
  announce s (latchIrqs s { s with serial := p, free := s.free + freeSlots })

/-- A bit time of TXD shown to the outside, but in loopback. -/
def State.showBit (s : State) : State :=
  if s.serial.busy && !s.serial.loop then { s with outbox := .txBit s.serial.txdLevel :: s.outbox } else s

/-- An instruction scanned in; what was captured is always 001 (62 R683). Under ICTEST1 the contents of the ID-bus cells
become undefined (62 R684), and the ID bus, which Load Test Instruction mode reads, is no longer driven by them. -/
def selectTap (code : BitVec 3) (s : State) : State :=
  let d := { s.dbg with tap := code }
  let d := if tapInstr code = .ictest1 then
      { d with scanIn := s.freeWord 0, ir := if s.mode = .loadTest then s.freeWord 0 else d.ir }
    else d
  { s.reserve with dbg := d, outbox := .tapInstruction 1 :: s.outbox }

/-- One move of an agent. The Am29205 has no test access port. -/
def runMove (m : Move) (s : State) : Result :=
  match m with
  | .pins p => .next (pinsMove p s)
  | .pioSync => .next (syncPio s)
  | .dma => dmaMove s
  | .txLoad =>
    match s.serial.txLoad with
    | none => .next s
    | some p => .next (serialMove s p).showBit
  | .uclk =>
    let p := s.serial.uclk (s.freeBool 0)
    .next (if p.2 then (serialMove s p.1).showBit else serialMove s p.1)
  | .rxBit level =>
    .next (if s.serial.loop then s else serialMove s (s.serial.rxBit level (s.freeBool 0)))
  | .ppTick => .next (latchIrqs s { s with pport := s.pport.tick.settle s.pins })
  | .vclk rising level =>
    .next (announce s (latchIrqs s { s with
      video := s.video.clock s.pins rising level (s.freeBool 0), free := s.free + freeSlots }))
  | .tick => .next (if s.inStep then (advanceTimer s).reserve else s)
  | .master a d => masterMove a d s
  | .idBus w =>
    if s.variant = .am29205 ∨ s.tapInstr ≠ .ictest2 then .next s
    else .next { s with dbg := { s.dbg with scanIn := w, ir := if s.mode = .loadTest then w else s.dbg.ir } }
  | .tapIr code =>
    if s.variant = .am29205 then .next s else .next (selectTap code s)
  | .trst => if s.variant = .am29205 then .next s else .next { s with dbg := { s.dbg with tap := 7 } }
  | .tapCapture =>
    if s.variant = .am29205 then .next s else .next { s.reserve with outbox := tapCapture s ++ s.outbox }

/-! ### RESET (70 R700, 61 R545) -/

/-- A word of the free values a reset uses. -/
def State.resetWord (s : State) (k : Nat) : Word := Config.freeWord (s.free + k)

/-- How many free values a reset uses. -/
def resetSlots : Nat := 256

/-- A word whose bits exist in a register. -/
def State.openPreg (s : State) (k : Nat) (r : PReg) : Word := stored s r (s.resetWord k)

/-- Peripherals a reset disables: DMA channels (QEN, TTI, CTI by D25), the other fields given. -/
def resetChannel (ctl addr cnt : Word) : DmaChannel := ⟨ctl &&& ~~~0x00300093#32, addr, cnt, false⟩

/-- Serial port. -/
def Serial.reset (p : Serial) : Serial :=
  Serial.settle { p with ctl := p.ctl &&& ~~~0x303#32 }

/-- Parallel port. -/
def Parallel.reset (p : Parallel) : Parallel :=
  Parallel.resetMachine { p with ctl := (p.ctl &&& ~~~0x740#32) ||| 0x80 }

/-- Video interface. -/
def Video.reset (v : Video) : Video :=
  Video.resetMachine { v with ctl := (v.ctl &&& ~~~0x320#32) ||| 0x400 }

/-- The peripherals after a reset (61 R545): what the table sets is set, what it leaves undefined takes free values
masked to the bits that exist (93 U10), ICT keeps its contents. -/
def resetPeripherals (s : State) : State :=
  { s with
    rmct := (s.openPreg 17 .rmct &&& 0x08E3E3E3) ||| 0x03000000 ||| bootWidth s.variant s.strap
    rmcf := 0x00FFFFFF
    drct := putBits (s.openPreg 18 .drct) 0 0x1FF#9
    drcf := s.openPreg 19 .drcf
    drm0 := s.openPreg 20 .drm0
    drm1 := s.openPreg 21 .drm1
    drm2 := s.openPreg 22 .drm2
    drm3 := s.openPreg 23 .drm3
    pict0 := s.openPreg 24 .pict0
    pict1 := s.openPreg 25 .pict1
    dma0 := resetChannel (s.openPreg 26 .dmct0) (s.openPreg 27 .dmad0) (s.openPreg 28 .dmcn0)
    dma1 := resetChannel (s.openPreg 29 .dmct1) (s.openPreg 30 .dmad1) (s.openPreg 31 .dmcn1)
    tailAddr := bits (s.resetWord 32) 0 24
    tailCount := bits (s.resetWord 33) 0 24
    poct := s.openPreg 34 .poct
    pout := s.openPreg 35 .pout
    poen := 0
    serial := Serial.reset { s.serial with
      ctl := s.openPreg 36 .spct
      stat := s.openPreg 37 .spst
      thr := bits (s.resetWord 38) 0 8
      rbr := bits (s.resetWord 39) 0 8
      baud := s.openPreg 40 .baud }
    pport := Parallel.reset { s.pport with ctl := s.openPreg 41 .ppct }
    video := Video.reset { s.video with
      ctl := s.openPreg 42 .vct
      top := s.openPreg 43 .top
      side := s.openPreg 44 .side
      vdt := s.resetWord 45 } }

/-- The store of an outstanding access undone or not: an access cut off may or may not have changed memory (60 R484). -/
def Flight.restore (f : Flight) (undo : Bool) (m : List Host.Cell) : List Host.Cell :=
  match f.store with
  | some (k, old) => if undo then Memory.putBytes m k old else m
  | none => m

/-- The debug state after RESET or WARN, and when normal operation resumes: no injected instruction, no access of one
under way, the forced status ended. DESIGN CHOICE (log 40): so a WARN taken under the forced status ends it, although
62 R690 speaks of the way through Halt mode only; and one taken before the step that brings the datum of an OPT = 110
load, or shows the word of such a store, drops that access. -/
def Debug.quiet (d : Debug) : Debug :=
  { d with
    irValid := false, forced := false, scanOut := none, loadReg := none, storeWord := none, lastAccess := none }

/-- CNTL as the debug host drives it: the last change, also where that waits for a multiple to end (62 R689). -/
def Debug.cntlNow (d : Debug) : BitVec 2 := d.pending.getLast?.getD d.cntl

/-- The debug state after RESET: HaltProtectionDisabled is set iff CNTL is 10 (62 R692). The test access port is reset
by TRST only. -/
def resetDebug (s : State) : Debug :=
  { s.dbg.quiet with
    cntl := s.dbg.cntlNow, pending := [],
    haltUnprotected := decide (s.variant = .am29200) && s.dbg.cntlNow == 2 }

/-- RESET asserted and released while the machine runs: what R58, R545 and R700 set is set; the registers they leave
undefined take fresh free values, masked to the bits that exist; memory and ICT keep their contents, an access in
flight is abandoned. DESIGN CHOICE (log 20): an abandoned access of a PIA device or of VDRAM stays in the outbox as done,
and what one of an internal peripheral register did stays, as far as the reset leaves that register alone.
DESIGN CHOICE (log 40): with CNTL = 01 or 00 the core leaves the reset executing; the spec gives
the mode for 10 and 11 only. -/
def resetPin (s : State) : State :=
  { announce s (resetPeripherals s) with
    pc := 0
    npc := 4
    prevPc := 0
    gr1 := s.resetWord 0
    shadow := ⟨s.resetWord 0, false⟩
    gr := Vector.ofFn fun i => s.resetWord (64 + i.val)
    lr := Vector.ofFn fun i => s.resetWord (128 + i.val)
    vab := s.resetWord 1 &&& 0xFFFFFC00
    ops := s.resetWord 2 &&& opsMask
    cps := 0x413
    cha := s.resetWord 3
    chd := s.resetWord 4
    chc := s.resetWord 5 &&& 0xFFFFE3FE
    rbp := s.resetWord 6 &&& 0xFFFF
    tmc := s.resetWord 7 &&& 0x00FFFFFF
    tmr := s.resetWord 8 &&& 0x07FFFFFF
    pc0 := wordAligned (s.resetWord 9)
    pc1 := wordAligned (s.resetWord 10)
    pc2 := wordAligned (s.resetWord 11)
    ipa := s.resetWord 12 &&& 0x3FC
    ipb := s.resetWord 13 &&& 0x3FC
    ipc := s.resetWord 14 &&& 0x3FC
    q := s.resetWord 15
    alu := s.resetWord 16 &&& aluMask
    recent := Recent.none
    fzSettle := 0
    chcMl := false
    mode := if s.variant = .am29200 && s.dbg.cntlNow = 2 then .halt else .executing
    warnLatch := false
    flight := none
    multiple := none
    mem := (s.flight.map fun f => f.restore (Config.freeBool s.free) s.mem).getD s.mem
    dbg := resetDebug s
    free := s.free + resetSlots }

/-! ### WARN (60 R484) -/

/-- "WARN may also reset some internal peripherals": each unit keeps its state or is reset, by a free choice
(93 U23). -/
def warnPeripherals (s : State) : State :=
  let keep (k : Nat) : Bool := Config.freeBool (s.free + k)
  let r := resetPeripherals s
  announce s { s with
    rmct := if keep 0 then s.rmct else r.rmct
    rmcf := if keep 0 then s.rmcf else r.rmcf
    drct := if keep 1 then s.drct else r.drct
    drcf := if keep 1 then s.drcf else r.drcf
    drm0 := if keep 1 then s.drm0 else r.drm0
    drm1 := if keep 1 then s.drm1 else r.drm1
    drm2 := if keep 1 then s.drm2 else r.drm2
    drm3 := if keep 1 then s.drm3 else r.drm3
    pict0 := if keep 2 then s.pict0 else r.pict0
    pict1 := if keep 2 then s.pict1 else r.pict1
    dma0 := if keep 3 then s.dma0 else r.dma0
    dma1 := if keep 3 then s.dma1 else r.dma1
    tailAddr := if keep 3 then s.tailAddr else r.tailAddr
    tailCount := if keep 3 then s.tailCount else r.tailCount
    poct := if keep 4 then s.poct else r.poct
    pout := if keep 4 then s.pout else r.pout
    poen := if keep 4 then s.poen else r.poen
    serial := if keep 5 then s.serial else r.serial
    pport := if keep 6 then s.pport else r.pport
    video := if keep 7 then s.video else r.video
    free := s.free + resetSlots }

/-- A WARN while an access is outstanding (60 R474, R484, log 20): whether the access still is, is a free choice. If so
CV = 1 describes it, NN says that a later instruction overwrote the target, a target still awaited keeps the value it
had, gr1 with its shadow copy, and a store may or may not have changed memory. DESIGN CHOICE (log 20): an access of a PIA
device, of VDRAM or of an internal peripheral register stays done outside the core. -/
def cutOff (s : State) : State :=
  match s.flight with
  | none => s
  | some f =>
    if s.freeBool 0 then
      let t := { s with
        mem := f.restore (s.freeBool 1) s.mem
        chc := if s.fz then s.chc else putBit (putBit s.chc 0 true) 1 (!f.needed)
        free := s.free + freeSlots }
      match f.load with
      | some (n, v, sh) => if f.needed then { t.putReg false n v with shadow := if n = 1 then sh else t.shadow } else t
      | none => t
    else s.reserve

/-- What a WARN handler finds saved: PC0-PC2 stay under the status of Load Test Instruction mode, in which FZ is forced
(62 R690, D4). -/
def warnContext (s : State) (frozen : Bool) : State := if frozen then s else saveContext s

/-- TakeWARN (60 R484): the vector fetch is not performed, execution begins at address 16. -/
def takeWarn (s : State) : State :=
  enterHandler 0x10 (saveStatus (warnContext { warnPeripherals (cutOff s) with
    warnLatch := false, mode := .executing, dbg := s.dbg.quiet } s.dbg.forced))

end Sys2Proof.Machine
end

