-- ==== Sys2Proof/Machine/Access.lean ====
section
/-! DEFINITION. Loads, stores and multiples: the access path, the channel registers, and the transfer loop
(20 R103-R122, 45 R331-R341). -/

namespace Sys2Proof.Machine

/-- How an access ends: with a value, with a trap before any bus activity, or outside the spec. -/
inductive Access (α : Type) where
  | done (x : α)
  | trap (vn : VecNum)
  | fault (f : Fault)
  | refuse (r : Refusal)
  deriving Repr

/-- OPT codes 000, 001, 010 (20 R108). -/
def optDefined (opt : BitVec 3) : Bool := opt == 0 || opt == 1 || opt == 2

/-- An instruction injected through Load Test Instruction mode is executing (62 R690, R691). -/
def State.injecting (s : State) : Bool := s.dbg.irValid && s.mode == .step

/-- The trap an access raises before it is performed (20 R103 steps 1 and 3): where it is both unaligned and unmapped the
Mapping Miss is the one taken (45 R331 step 5, 60 R466, R467; log 21). -/
def accessTrap (s : State) (opt : BitVec 3) (a : Word) : Option VecNum :=
  if locate s a = .miss then some (vDataMiss s)
  else if s.tu && unaligned opt a then some vUnaligned
  else none

/-- The address bits a PIA device sees: 24, on the Am29205 22 (20 R122). -/
def piaAddr (v : Variant) (a : Word) : BitVec 24 :=
  if v = .am29200 then bits a 0 24 else (bits a 0 22 : BitVec 22).setWidth 24

/-- The datum of a load from a device that is there (20 R103 steps 4, 5). Slot 6 is the open datum: PIA devices
(20 R122), VDRAM (93 U18), an unaligned word of a 16-bit DRAM bank (93 U17). -/
def loadFrom (s : State) (opt : BitVec 3) (sb : Bool) (a : Word) : Access (Word × State) :=
  match locate s a with
  | .rom _ w => .done (selectData opt sb a (narrowView w opt a (wordAt s a)), s)
  | .dram p w =>
    if w = 16 && opt == 0 && unaligned opt p then .done (s.freeWord 6, s)
    else .done (selectData opt sb a (wordAt s p), s)
  | .vdram => .done (selectData opt sb a (s.freeWord 6), { s with outbox := .vdramCycle a :: s.outbox })
  | .periph =>
    match periphLoad a (optBytes opt) s with
    | .next p => .done (selectData opt sb a p.1, p.2)
    | .fault f => .fault f
    | .refused r => .refuse r
  | .pia r =>
    .done (selectData opt sb a (s.freeWord 6),
      { s with outbox := .piaRead r (piaAddr s.variant a) (optBytes opt) :: s.outbox })
  | .miss => .trap (vDataMiss s)
  | .absent => .fault (.unimplementedAddress a)
  | .reservedCode => .refuse (.reservedField a)

/-- MemRead (20 R103). The datum of OPT = 110 is open: no access appears in the system (93 U14), and a debug host
supplies it one step later (62 R691, `completeScan`). DESIGN CHOICE (log 25): an injected one exchanges with the scan
cells whatever its address; the spec speaks of ROM-region addresses only. -/
def memRead (s : State) (opt : BitVec 3) (sb : Bool) (a : Word) : Access (Word × State) :=
  if opt = 6 then .done (s.freeWord 6, s)
  else if !optDefined opt then .refuse (.reservedOpt opt)
  else
    match accessTrap s opt a with
    | some vn => .trap vn
    | none => loadFrom s opt sb a

/-- A store as the bus sees it: its width and address, the word driven (20 R106), and the addresses of the instruction
words that execute next, which it may not change (20 R134, D13). -/
structure StoreReq where
  opt : BitVec 3
  addr : Word
  data : Word
  ahead : List Word
  deriving DecidableEq, Repr

/-- The next four instruction words after the instruction at pc; an injected instruction has none. -/
def State.wordsAhead (s : State) : List Word :=
  if s.injecting then [] else (List.range 4).map fun k => s.npc + BitVec.ofNat 32 (4 * k)

/-- The next four instruction words once a return has set pc and npc. -/
def State.wordsAfterReturn (s : State) : List Word :=
  s.pc :: (List.range 3).map fun k => s.npc + BitVec.ofNat 32 (4 * k)

/-- A store lies in one of the instruction words at `ahead`. -/
def hitsWords (s : State) (ahead : List Word) (p : Word) : Bool :=
  ahead.any fun a => (physical s a).any fun q => wordAligned q == wordAligned p

/-- The same for the next four words. -/
def hitsNextWords (s : State) (p : Word) : Bool := hitsWords s s.wordsAhead p

/-- A store of ROM or DRAM bytes at a physical address: those in the lanes of the word driven. -/
def storeMem (s : State) (r : StoreReq) (p : Word) : Access State :=
  if hitsWords s r.ahead p then .refuse (.selfModify p)
  else .done (s.storeAt r.opt p (selectData r.opt false p r.data))

/-- A store to a device that is there (20 R103 steps 4, 5, R116, R118). -/
def storeTo (s : State) (r : StoreReq) : Access State :=
  match locate s r.addr with
  | .rom x w =>
    if w = 8 || (8 * optBytes r.opt < w && !bit s.rmct 27) then .refuse (.romWrite r.addr)
    else if s.romWritable.getLsbD x then storeMem s r r.addr
    else .done s
  | .dram p w =>
    if w = 16 && r.opt == 0 && unaligned r.opt p then .refuse (.dramUnalignedStore r.addr) else storeMem s r p
  | .vdram => .done { s with outbox := .vdramCycle r.addr :: s.outbox }
  | .periph =>
    match periphStore r.addr (optBytes r.opt) r.data s with
    | .next t => .done t
    | .fault f => .fault f
    | .refused x => .refuse x
  | .pia i =>
    .done { s with outbox := .piaWrite i (piaAddr s.variant r.addr) (optBytes r.opt) r.data :: s.outbox }
  | .miss => .trap (vDataMiss s)
  | .absent => .fault (.unimplementedAddress r.addr)
  | .reservedCode => .refuse (.reservedField r.addr)

/-- MemWrite (20 R103). A store with OPT = 110 reaches the ID-bus cells of a debug host, at the end of its next step, and
nothing else (62 R691), whatever its address (log 25). -/
def memStore (s : State) (r : StoreReq) : Access State :=
  if r.opt = 6 then .done (if s.injecting then { s with dbg := { s.dbg with storeWord := some r.data } } else s)
  else if !optDefined r.opt then .refuse (.reservedOpt r.opt)
  else
    match accessTrap s r.opt r.addr with
    | some vn => .trap vn
    | none => storeTo s r

/-- A store by the instruction at pc: the low byte or half-word in every position (20 R106). -/
def memWrite (s : State) (opt : BitVec 3) (a v : Word) : Access State :=
  memStore s ⟨opt, a, replicateData opt v, s.wordsAhead⟩

/-! ### Control field and channel registers (45 R331, R332) -/

/-- OPT of a CNTL byte. -/
def cntlOpt (cntl : BitVec 8) : BitVec 3 := cntl.extractLsb' 0 3
/-- SB of a CNTL byte. -/
def cntlSb (cntl : BitVec 8) : Bool := cntl.getLsbD 4

/-- CHA, CHD, CHC of an access, unless frozen (45 R332). -/
def State.record (s : State) (a datum chc : Word) : State :=
  { s with
    cha := if s.fz then s.cha else a
    chd := if s.fz then s.chd else datum
    chc := if s.fz then s.chc else chc
    chcMl := if s.fz then s.chcMl else false }

/-- Contents Valid replaced, unless frozen. -/
def State.setCv (s : State) (b : Bool) : State :=
  { s with chc := if s.fz then s.chc else putBit s.chc 0 b }

/-! ### The access in flight (10 R57, 20 R120, 70 R731) -/

/-- The access now in flight, if any. -/
def State.launch (s : State) (f : Option Flight) : State := { s with flight := f }

/-- Whether an access is an external one, which may still be outstanding after its step: all but those with OPT = 110,
those of the internal peripherals among them (00 R12). -/
def isExternal (opt : BitVec 3) : Bool := opt != 6

/-- The target of a load as it was before. -/
def loadTarget (s : State) (n : AbsReg) : AbsReg × Word × Shadow := (n, readReg 0 n s, s.shadow)

/-- The bytes a store replaces, where they are memory. -/
def storeOld (s : State) (opt : BitVec 3) (a : Word) : Option (Nat × List Byte) :=
  (physical s a).map fun p =>
    let k := cellKey (accessBase opt p)
    (k, (List.range (optBytes opt)).map fun j => Memory.get s.mem (k + j))

/-- The flight of an access from the state before it. -/
def flightOf (s : State) (load store : Bool) (opt : BitVec 3) (n : AbsReg) (a : Word) : Option Flight :=
  if isExternal opt then
    some ⟨if load then some (loadTarget s n) else none, true, if store then storeOld s opt a else none⟩
  else none

/-- The instruction ends as its access did; `k` continues a completed one. -/
def Access.andThen {α : Type} (x : Access α) (s : State) (k : α → Result) : Result :=
  match x with
  | .done v => k v
  | .trap vn => trapAccess vn (s.setCv true)
  | .fault f => .fault f
  | .refuse r => .refused r

/-- The operand part of LOAD, STORE and LOADSET (45 R331 steps 1-3): data register, address, state with BP set; an
earlier access has completed (70 R730). -/
def withAccess (cntl : BitVec 8) (ra : RegNum) (b : SrcB) (s : State)
    (k : AbsReg → Word → State → Result) : Result :=
  match operandsAB ra b s with
  | none => .refused .localsUnpredictable
  | some o =>
    guarded (o.isProtected s) s
      (if s.chcMl then .refused .multipleByHand
       else k o.a (o.vb s) ((s.enter.setBp (cntlSb cntl)).launch none))

/-- The datum of a load into its register. That of an injected OPT = 110 load comes one step later (62 R691). -/
def loadFinish (opt : BitVec 3) (n : AbsReg) (v : Word) (s : State) : Result :=
  if s.injecting && opt == 6 then .next (finish s) else writeFinish false n v s

/-- LOAD (45 R333). -/
def runLoad (cntl : BitVec 8) (ra : RegNum) (b : SrcB) (s : State) : Result :=
  withAccess cntl ra b s fun n a t =>
    let t := t.record a (t.freeWord 7) (chcWord cntl t.cr true false false n false)
    (memRead t (cntlOpt cntl) (cntlSb cntl) a).andThen t fun p =>
      loadFinish (cntlOpt cntl) n p.1 (p.2.launch (flightOf t true false (cntlOpt cntl) n a))

/-- LOADSET (45 R337): the read, the register, then all ones stored with the same OPT, indivisibly. DESIGN CHOICE (log
40): an injected one with OPT = 110 takes its datum and shows the word of ones on the ID-bus cells, both. -/
def runLoadSet (cntl : BitVec 8) (ra : RegNum) (b : SrcB) (s : State) : Result :=
  withAccess cntl ra b s fun n a t =>
    let t := t.record a (t.freeWord 7) (chcWord cntl t.cr true false true n false)
    (memRead t (cntlOpt cntl) (cntlSb cntl) a).andThen t fun p =>
      (memWrite p.2 (cntlOpt cntl) a 0xFFFFFFFF).andThen p.2 fun u =>
        loadFinish (cntlOpt cntl) n p.1 (u.launch (flightOf t true true (cntlOpt cntl) n a))

/-- STORE (45 R335). -/
def runStore (cntl : BitVec 8) (ra : RegNum) (b : SrcB) (s : State) : Result :=
  withAccess cntl ra b s fun n a t =>
    let v := readReg 3 n s
    let t := t.record a (replicateData (cntlOpt cntl) v) (chcWord cntl t.cr false false false n false)
    (memWrite t (cntlOpt cntl) a v).andThen t fun u =>
      .next (finish (u.launch (flightOf t false true (cntlOpt cntl) n a)))

/-! ### Multiples (45 R339) -/

/-- What happens between two transfers: the sequence goes on, or RESET abandoned it (70 R700). -/
inductive Gap where
  | go (s : State)
  | reset (s : State)
  | fault (f : Fault)
  | refuse (r : Refusal)
  deriving Repr

/-- A move that uses the bus at a lower priority than DMA (20 R131). -/
def Move.needsBus : Move → Bool
  | .master _ _ => true
  | _ => false

/-- The debug host can change CNTL (62 R684). -/
def drivesCntl (s : State) : Bool :=
  s.variant == .am29200 && (s.tapInstr == .ictest1 || s.tapInstr == .ictest2)

/-- A change of CNTL that takes effect later, after those that wait already. -/
def queueCntl (v : BitVec 2) (s : State) : State :=
  if v = s.dbg.cntlNow then s else { s with dbg := { s.dbg with pending := s.dbg.pending ++ [v] } }

/-- CNTL changes during a multiple: STAT shows Halt or Step mode for one cycle, and the change takes hold at the end
(62 R689). -/
def deferCntl (v : BitVec 2) (s : State) : State :=
  if drivesCntl s && v != s.dbg.cntlNow then
    let t := queueCntl v s
    if v = 1 ∨ v = 2 then { t with outbox := .stat StatCondition.haltOrStep.code :: t.outbox } else t
  else s

/-- Moves scheduled between two transfers (20 R124); a move that needs the bus waits while a DMA channel has it. -/
def drainMid : List Event → State → Gap
  | .mid m :: r, s =>
    if m.needsBus && busTaken s then .go s
    else
      match runMove m { s with schedule := r } with
      | .next t => drainMid r t
      | .fault f => .fault f
      | .refused x => .refuse x
  | .midCntl v :: r, s => drainMid r (deferCntl v { s with schedule := r })
  | .midReset :: r, s => .reset (resetPin { s with schedule := r })
  | .gap :: r, s => .go { s with schedule := r }
  | _, s => .go s

/-- A gap before a transfer. -/
def gapBefore (s : State) : Gap := drainMid s.schedule s

/-- How the instruction completes around an interrupt: `finish` for LOADM and STOREM, nothing for a resumed sequence,
whose return has set pc and npc. DESIGN CHOICE (log 46): so TP takes TE at the interruption, and not again at the end
of the resumed sequence. -/
def Sequence.leave : Sequence → State → State
  | .fresh => finish
  | .resumed _ => id

/-- The instruction words that execute next. -/
def Sequence.ahead : Sequence → State → List Word
  | .fresh => State.wordsAhead
  | .resumed _ => State.wordsAfterReturn

/-- The event that interrupts the sequence before its next transfer. -/
def Sequence.event (q : Sequence) (s : State) : Option VecNum :=
  match asyncEvent s with
  | some vn => if q = .resumed (some vn) then none else some vn
  | none => none

/-- The next register of a sequence (45 R339): 127 wraps to 128 and 255 to 128. -/
def nextReg (n : AbsReg) : AbsReg := if n.toNat = 255 then 128 else n + 1

/-- The channel registers of one transfer: address, register, datum of a store. -/
def recordTransfer (load : Bool) (cntl : BitVec 8) (left : Nat) (n : AbsReg) (a : Word) (s : State) : State :=
  s.record a (if load then s.freeWord 7 else readReg 3 n s)
    (chcWord cntl (BitVec.ofNat 8 left) load true false n false)

/-- A protected register in the sequence: the trap is taken, and what the channel registers then hold is not described
(45 R339). DESIGN CHOICE (log 19): CV, ML, TR and the other fields of CHC, which 93 U5 does not name, are open with CHA,
CHD and CR. -/
def protectedMid (s : State) : Result :=
  trapCurr vProtection
    { s with cha := s.freeWord 5, chd := s.freeWord 6, chc := s.freeWord 7 &&& chcMask }

/-- One transfer of one word. -/
def transfer (load : Bool) (ahead : List Word) (n : AbsReg) (a : Word) (s : State) : Access State :=
  if load then
    match memRead s 0 false a with
    | .done p =>
      match writeReg false n p.1 p.2 with
      | some t => .done t
      | none => .refuse (.unimplementedRegisterWrite n)
    | .trap vn => .trap vn
    | .fault f => .fault f
    | .refuse r => .refuse r
  else memStore s ⟨0, a, readReg 3 n s, ahead⟩

/-- After the last transfer: CV = 0, CR open (93 U4). -/
def endMultiple (s : State) : State :=
  { s with
    chc := putBits (putBit s.chc 0 false) 16 (bits (s.freeWord 5) 0 8 : BitVec 8)
    free := s.free + freeSlots }

/-- The sequence ends before its next transfer, with CV = 1 for it. -/
def cutShort (q : Sequence) (s : State) : State := (q.leave (s.setCv true)).withSettle s.fzSettle

/-- The transfers that remain: `left` of them, the next one of register n at address a. Before each of them other
agents move, and while a DMA channel has the bus the sequence waits for it (20 R131, 61 R617); a WARN, which goes before
any other trap (60 R467), ends the sequence with CV = 1 (60 R474, R484); then a protected next register is a violation, and
an interrupt that is enabled is taken with CV = 1 (45 R339). A WARN that comes with a transfer's trap replaces the trap
(60 R468). During the gap `multiple` holds the rest, so that the agents see a multiple under way. DESIGN CHOICE (log 39): a
WARN cuts a sequence off before a transfer, so the transfer that CV = 1 describes has not changed memory; it may be one of
a protected register, which a return then transfers unchecked, as 49 R447 has every restart. DESIGN CHOICE (log 19): at
one gap a protected next register goes before an enabled interrupt, the order of the loop of 45 R339, although 60 R467
ranks the interrupt first. -/
def transfersLeft (load : Bool) (cntl : BitVec 8) (q : Sequence) : Nat → AbsReg → Word → State → Result
  | 0, _, _, s => .next (q.leave (endMultiple s))
  | left + 1, n, a, s =>
    match gapBefore { s.reserve with multiple := some ⟨load, cntl, q, left + 1, n, a⟩ } with
    | .fault f => .fault f
    | .refuse r => .refused r
    | .reset g => .next g
    | .go g =>
      if busTaken g then .next g
      else
        let t := recordTransfer load cntl left n a { g with multiple := s.multiple }
        if t.warnLatch then .next (cutShort q t)
        else if isProtected g n then protectedMid { g with multiple := s.multiple }
        else
          match q.event t with
          | some vn => trapLeaving q.leave vn (t.setCv true)
          | none =>
            match transfer load (q.ahead t) n a t with
            | .done u => transfersLeft load cntl q left (nextReg n) (a + 4) u
            | .trap vn =>
              if t.da then .refused (.trapWhileDisabled vn)
              else if t.warnSoon then .next (cutShort q t)
              else trapLeaving q.leave vn (t.setCv true)
            | .fault f => .fault f
            | .refuse r => .refused r

/-- A sequence that waited for the bus goes on. -/
def resumeSequence (m : Multiple) (s : State) : Result :=
  transfersLeft m.load m.cntl m.seq m.left m.reg m.addr { s with multiple := none }

/-- The instruction is a multiple: the next one may not be (70 R725). -/
def State.markMultiple (s : State) : State := { s with recent := { s.recent with multi := true } }

/-- LOADM and STOREM (45 R339-R341). The address and the starting register, the two numbers the instruction names, are
checked before anything changes, as for every instruction (10 R27, 60 R476). DESIGN CHOICE (log 19): so the check in the
loop of 45 R339, which stands after BP is set, concerns the registers that the sequence comes to later. -/
def runMultiple (load : Bool) (cntl : BitVec 8) (ra : RegNum) (b : SrcB) (s : State) : Result :=
  match operandsAB ra b s with
  | none => .refused .localsUnpredictable
  | some o =>
    let t := (s.enter.setBp (cntlSb cntl)).launch none
    guarded (o.isProtected s) s
      (if s.chcMl then .refused .multipleByHand
       else if cntlOpt cntl ≠ 0 then .refused (.reservedOpt (cntlOpt cntl))
       else if s.fz then .refused .frozenMultiple
       else if s.recent.multi then .refused .adjacentMultiples
       else transfersLeft load cntl .fresh (t.cr.toNat + 1) o.a (o.vb s) t.markMultiple)

/-! ### Accesses restarted by IRET (49 R447) -/

/-- The trap of a restarted access, taken at the point the return leads to; a WARN at the same time replaces it. -/
def restartTrap (vn : VecNum) (s : State) : Result :=
  if s.da then .refused (.trapWhileDisabled vn) else if s.warnSoon then .next s.reserve else takeTrap vn s

/-- A restarted access that completed clears CV; one that did not traps again. -/
def Access.restart {α : Type} (x : Access α) (s : State) (k : α → Result) : Result :=
  match x with
  | .done v => k v
  | .trap vn => restartTrap vn s
  | .fault f => .fault f
  | .refuse r => .refused r

/-- A restarted access that completed is in flight like any other. -/
def restartDone (f : Option Flight) (s : State) : Result := .next ((s.setCv false).launch f).reserve

/-- A register written by a restarted load. -/
def restartWrite (f : Option Flight) (n : AbsReg) (v : Word) (s : State) : Result :=
  match writeReg false n v s with
  | some t => restartDone f t
  | none => .refused (.unimplementedRegisterWrite n)

/-- RestartAccess: one access from CHA, CHD and CHC, without bank check and without writing BP. A store drives CHD as it
is. -/
def restartAccess (s : State) : Result :=
  let cntl : BitVec 8 := bits s.chc 24 8
  let n : AbsReg := bits s.chc 2 8
  let opt := cntlOpt cntl
  let set := bit s.chc 13
  if bit s.chc 15 then
    let f := flightOf s true set opt n s.cha
    (memRead s opt (cntlSb cntl) s.cha).restart s fun p =>
      if set then
        (memStore p.2 ⟨opt, s.cha, 0xFFFFFFFF, s.wordsAfterReturn⟩).restart p.2 fun u => restartWrite f n p.1 u
      else restartWrite f n p.1 p.2
  else
    (memStore s ⟨opt, s.cha, s.chd, s.wordsAfterReturn⟩).restart s
      (restartDone (flightOf s false true opt n s.cha))

/-- The first transfer of a resumed sequence: a store drives CHD. -/
def resumeFirst (load : Bool) (n : AbsReg) (s : State) : Access State :=
  if load then transfer true [] n s.cha s else memStore s ⟨0, s.cha, s.chd, s.wordsAfterReturn⟩

/-- ResumeMultiple: the transfer in the channel registers, then the rest. DESIGN CHOICE (log 19): the resumed sequence
does not count as a multiple for 93 U9, so one right after it runs, with an open CR. -/
def resumeMultiple (s : State) : Result :=
  let cntl : BitVec 8 := bits s.chc 24 8
  let n : AbsReg := bits s.chc 2 8
  let load := bit s.chc 15
  if s.fz then .refused .frozenMultiple
  else
    (resumeFirst load n s).restart s fun u =>
      transfersLeft load cntl (.resumed (asyncEvent s)) s.cr.toNat (nextReg n) (s.cha + 4) u

/-- The interrupt return sequence after the privilege check (49 R447). -/
def interruptReturn (s : State) : Result :=
  let t := (restoreContext s.openPcs).reserve
  if t.cv && !t.nn then
    if t.ml then resumeMultiple t else restartAccess t
  else .next t

end Sys2Proof.Machine
end

