-- ==== Sys2Proof/Machine/AddSub.lean ====
section
/-! DEFINITION. The eighteen add and subtract instructions (40). -/

namespace Sys2Proof.Machine

/-- Which result raises Out-of-Range (40 R202). -/
inductive RangeCheck where
  | unchecked
  | signed
  | carry
  | borrow
  deriving DecidableEq, Repr

/-- The trap condition on the add just made. -/
def RangeCheck.fails : RangeCheck → AddResult → Bool
  | .unchecked, _ => false
  | .signed, a => a.v
  | .carry, a => a.c
  | .borrow, a => !a.c

/-- Common steps (40 R200-R202): operands, adder, destination, flags, then the checked trap. -/
def runAdd (chk : RangeCheck) (f : Word → Word → State → AddResult) (rc ra : RegNum) (b : SrcB) (s : State) : Result :=
  withRRM rc ra b s fun c x y t =>
    let a := f x y t
    writeThen true c a.r t fun u =>
      let w := u.setArithFlags a a.r
      if chk.fails a then trapNext vOutOfRange w else .next (finish w)

/-- SRCA + SRCB. -/
def sumOf (x y : Word) (_ : State) : AddResult := addCore x y false
/-- SRCA + SRCB + C. -/
def sumCarryOf (x y : Word) (s : State) : AddResult := addCore x y s.cFlag
/-- SRCA - SRCB. -/
def diffOf (x y : Word) (_ : State) : AddResult := addCore x (~~~y) true
/-- SRCA - SRCB - 1 + C. -/
def diffCarryOf (x y : Word) (s : State) : AddResult := addCore x (~~~y) s.cFlag
/-- SRCB - SRCA. -/
def revOf (x y : Word) (_ : State) : AddResult := addCore y (~~~x) true
/-- SRCB - SRCA - 1 + C. -/
def revCarryOf (x y : Word) (s : State) : AddResult := addCore y (~~~x) s.cFlag

/-- ADD (40 R203): SRCA + SRCB. -/
def execAdd (rc ra : RegNum) (b : SrcB) (s : State) : Result :=
  runAdd .unchecked sumOf rc ra b s

/-- ADDS (40 R207): SRCA + SRCB; Out-of-Range on signed overflow. -/
def execAdds (rc ra : RegNum) (b : SrcB) (s : State) : Result :=
  runAdd .signed sumOf rc ra b s

/-- ADDU (40 R208): SRCA + SRCB; Out-of-Range on unsigned overflow. -/
def execAddu (rc ra : RegNum) (b : SrcB) (s : State) : Result :=
  runAdd .carry sumOf rc ra b s

/-- ADDC (40 R204): SRCA + SRCB + C. -/
def execAddc (rc ra : RegNum) (b : SrcB) (s : State) : Result :=
  runAdd .unchecked sumCarryOf rc ra b s

/-- ADDCS (40 R205): SRCA + SRCB + C; Out-of-Range on signed overflow. -/
def execAddcs (rc ra : RegNum) (b : SrcB) (s : State) : Result :=
  runAdd .signed sumCarryOf rc ra b s

/-- ADDCU (40 R206): SRCA + SRCB + C; Out-of-Range on unsigned overflow. -/
def execAddcu (rc ra : RegNum) (b : SrcB) (s : State) : Result :=
  runAdd .carry sumCarryOf rc ra b s

/-- SUB (40 R209): SRCA - SRCB. -/
def execSub (rc ra : RegNum) (b : SrcB) (s : State) : Result :=
  runAdd .unchecked diffOf rc ra b s

/-- SUBS (40 R213): SRCA - SRCB; Out-of-Range on signed overflow. -/
def execSubs (rc ra : RegNum) (b : SrcB) (s : State) : Result :=
  runAdd .signed diffOf rc ra b s

/-- SUBU (40 R214): SRCA - SRCB; Out-of-Range on unsigned underflow. -/
def execSubu (rc ra : RegNum) (b : SrcB) (s : State) : Result :=
  runAdd .borrow diffOf rc ra b s

/-- SUBC (40 R210): SRCA - SRCB - 1 + C. -/
def execSubc (rc ra : RegNum) (b : SrcB) (s : State) : Result :=
  runAdd .unchecked diffCarryOf rc ra b s

/-- SUBCS (40 R211): SRCA - SRCB - 1 + C; Out-of-Range on signed overflow. -/
def execSubcs (rc ra : RegNum) (b : SrcB) (s : State) : Result :=
  runAdd .signed diffCarryOf rc ra b s

/-- SUBCU (40 R212): SRCA - SRCB - 1 + C; Out-of-Range on unsigned underflow. -/
def execSubcu (rc ra : RegNum) (b : SrcB) (s : State) : Result :=
  runAdd .borrow diffCarryOf rc ra b s

/-- SUBR (40 R215): SRCB - SRCA. -/
def execSubr (rc ra : RegNum) (b : SrcB) (s : State) : Result :=
  runAdd .unchecked revOf rc ra b s

/-- SUBRS (40 R219): SRCB - SRCA; Out-of-Range on signed overflow. -/
def execSubrs (rc ra : RegNum) (b : SrcB) (s : State) : Result :=
  runAdd .signed revOf rc ra b s

/-- SUBRU (40 R220): SRCB - SRCA; Out-of-Range on unsigned underflow. -/
def execSubru (rc ra : RegNum) (b : SrcB) (s : State) : Result :=
  runAdd .borrow revOf rc ra b s

/-- SUBRC (40 R216): SRCB - SRCA - 1 + C. -/
def execSubrc (rc ra : RegNum) (b : SrcB) (s : State) : Result :=
  runAdd .unchecked revCarryOf rc ra b s

/-- SUBRCS (40 R217): SRCB - SRCA - 1 + C; Out-of-Range on signed overflow. -/
def execSubrcs (rc ra : RegNum) (b : SrcB) (s : State) : Result :=
  runAdd .signed revCarryOf rc ra b s

/-- SUBRCU (40 R218): SRCB - SRCA - 1 + C; Out-of-Range on unsigned underflow. -/
def execSubrcu (rc ra : RegNum) (b : SrcB) (s : State) : Result :=
  runAdd .borrow revCarryOf rc ra b s

end Sys2Proof.Machine
end

