-- ==== Sys2Proof/Machine/MulDiv.lean ====
section
/-! DEFINITION. Multiply and divide steps (41 R231-R237) and the trapping multiplies and divides (41 R240-R246). -/

namespace Sys2Proof.Machine

/-- One multiply step (41 R231-R233): `add` forms the sum of the partial product and the selected multiplicand, `top`
the bit that fills the vacated position. -/
def runMulStep (add : Word → Word → AddResult) (top : AddResult → Bool)
    (rc ra : RegNum) (b : SrcB) (s : State) : Result :=
  withRRM rc ra b s fun c x y t =>
    let a := add (if bit t.q 0 then x else 0) y
    let d := putBit (a.r >>> 1) 31 (top a)
    writeThen true c d { t with q := putBit (t.q >>> 1) 31 (bit a.r 0) } fun u =>
      .next (finish (u.setArithFlags a d))

/-- The true sign of an add. -/
def trueSign (a : AddResult) : Bool := bit a.r 31 != a.v

/-- The add of DIV and DIVL (41 R235). -/
def divAdd (s : State) (x y : Word) : AddResult := if s.df then addCore x (~~~y) true else addCore x y false

/-- One divide step (41 R235, R236): `shift` says whether the destination is shifted. -/
def runDivStep (shift : Bool) (rc ra : RegNum) (b : SrcB) (s : State) : Result :=
  withRRM rc ra b s fun c x y t =>
    let a := divAdd t x y
    let df := divideFlag t a.c
    let d := if shift then putBit (a.r <<< 1) 0 (bit t.q 31) else a.r
    writeThen true c d { t with q := putBit (t.q <<< 1) 0 df } fun u =>
      .next (finish ((u.setArithFlags a d).setDf df))

/-- A trapping instruction (41 R240): the three pointers, then the trap of its operation code. -/
def runTrapping (op : BitVec 8) (rc ra rb : RegNum) (s : State) : Result :=
  match resolveNumbers rc ra rb s with
  | none => .refused .localsUnpredictable
  | some n => guarded (n.isProtected s) s (trapNext (op - 0xC0#8) (s.enter.setPointers n))

/-- Operands of DIV0: destination and SRCB (41 R234). -/
def withRM (rc : RegNum) (b : SrcB) (s : State) (k : AbsReg → Word → State → Result) : Result :=
  match resolve .C rc s, resolveSrc b s with
  | some c, some y => guarded (isProtected s c || y.isProtected s) s (k c (y.value s) s.enter)
  | _, _ => .refused .localsUnpredictable

/-- Flags of DIV0 (41 R234, D15): DF set, N the sign of SRCB, Z of the word written, V and C 0. -/
def State.setDiv0Flags (s : State) (y d : Word) : State :=
  { s with alu := if s.fz then s.alu else putBit (aluVNZC s.alu false (bit y 31) (d == 0) false) 11 true }

/-- MUL (41 R231): a signed multiply step. -/
def execMul (rc ra : RegNum) (b : SrcB) (s : State) : Result :=
  runMulStep (fun x y => addCore x y false) trueSign rc ra b s

/-- MULL (41 R232): the last signed multiply step, a subtract. -/
def execMull (rc ra : RegNum) (b : SrcB) (s : State) : Result :=
  runMulStep (fun x y => addCore y (~~~x) true) trueSign rc ra b s

/-- MULU (41 R233): an unsigned multiply step. -/
def execMulu (rc ra : RegNum) (b : SrcB) (s : State) : Result :=
  runMulStep (fun x y => addCore x y false) AddResult.c rc ra b s

/-- DIV0 (41 R234): divide initialize. -/
def execDiv0 (rc : RegNum) (b : SrcB) (s : State) : Result :=
  withRM rc b s fun c y t =>
    let d := putBit (y <<< 1) 0 (bit t.q 31)
    writeThen true c d { t with q := t.q <<< 1 } fun u => .next (finish (u.setDiv0Flags y d))

/-- DIV (41 R235): a divide step. -/
def execDiv (rc ra : RegNum) (b : SrcB) (s : State) : Result :=
  runDivStep true rc ra b s

/-- DIVL (41 R236): the last divide step. -/
def execDivl (rc ra : RegNum) (b : SrcB) (s : State) : Result :=
  runDivStep false rc ra b s

/-- DIVREM (41 R237): the remainder corrected (D15). -/
def execDivrem (rc ra : RegNum) (b : SrcB) (s : State) : Result :=
  withRRM rc ra b s fun c x y t =>
    let a := if t.df then addCore x 0 false else addCore x y false
    writeThen true c a.r t fun u => .next (finish (u.setArithFlags a a.r))

/-- MULTIPLY (41 R241): traps to vector 32. -/
def execMultiply (rc ra rb : RegNum) (s : State) : Result :=
  runTrapping 0xE0 rc ra rb s

/-- MULTIPLU (41 R242): traps to vector 34. -/
def execMultiplu (rc ra rb : RegNum) (s : State) : Result :=
  runTrapping 0xE2 rc ra rb s

/-- MULTM (41 R243): traps to vector 30. -/
def execMultm (rc ra rb : RegNum) (s : State) : Result :=
  runTrapping 0xDE rc ra rb s

/-- MULTMU (41 R244): traps to vector 31. -/
def execMultmu (rc ra rb : RegNum) (s : State) : Result :=
  runTrapping 0xDF rc ra rb s

/-- DIVIDE (41 R245): traps to vector 33. -/
def execDivide (rc ra rb : RegNum) (s : State) : Result :=
  runTrapping 0xE1 rc ra rb s

/-- DIVIDU (41 R246): traps to vector 35. -/
def execDividu (rc ra rb : RegNum) (s : State) : Result :=
  runTrapping 0xE3 rc ra rb s

end Sys2Proof.Machine
end

