-- ==== Sys2Proof/Machine/Compare.lean ====
section
/-! DEFINITION. Compares and asserts (42). -/

namespace Sys2Proof.Machine

/-! ### The relations (42 R261-R271) -/

/-- Equal. -/
def relEq (x y : Word) : Bool := x == y
/-- Not equal. -/
def relNeq (x y : Word) : Bool := x != y
/-- Less than. -/
def relLt (x y : Word) : Bool := x.slt y
/-- Less than, unsigned. -/
def relLtu (x y : Word) : Bool := x.ult y
/-- Less than or equal. -/
def relLe (x y : Word) : Bool := x.sle y
/-- Less than or equal, unsigned. -/
def relLeu (x y : Word) : Bool := x.ule y
/-- Greater than. -/
def relGt (x y : Word) : Bool := y.slt x
/-- Greater than, unsigned. -/
def relGtu (x y : Word) : Bool := y.ult x
/-- Greater than or equal. -/
def relGe (x y : Word) : Bool := y.sle x
/-- Greater than or equal, unsigned. -/
def relGeu (x y : Word) : Bool := y.ule x
/-- Some byte of one word equals the byte of the other in the same place (42 R271). -/
def relByte (x y : Word) : Bool := (List.range 4).any fun k => byteOfWord x k == byteOfWord y k

/-- Compare (42 R260): TRUE or FALSE into the destination; no flags. -/
def runCompare (rel : Word → Word → Bool) (rc ra : RegNum) (b : SrcB) (s : State) : Result :=
  withRRM rc ra b s fun c x y t => writeFinish false c (truth (rel x y)) t

/-- Whether a vector number may not be named in User mode (60 R460). -/
def reservedVector (s : State) (vn : VecNum) : Bool := !s.sm && decide (vn.toNat < 64)

/-- Assert (42 R275): where the relation holds nothing happens; where it fails, the trap, which in User mode with a
vector below 64 is a Protection Violation, and which DA = 1 disables altogether. Both traps start from the state that has
used up the free values of the operands (log 7). -/
def runAssert (rel : Word → Word → Bool) (vn : VecNum) (ra : RegNum) (b : SrcB) (s : State) : Result :=
  withAB ra b s fun x y t =>
    if rel x y || s.da then .next (finish t)
    else if reservedVector s vn then trapCurr vProtection t
    else trapNext vn t

/-- CPEQ (42 R261): SRCA = SRCB. -/
def execCpeq (rc ra : RegNum) (b : SrcB) (s : State) : Result :=
  runCompare relEq rc ra b s

/-- ASEQ (42 R276): assert SRCA = SRCB. -/
def execAseq (vn : VecNum) (ra : RegNum) (b : SrcB) (s : State) : Result :=
  runAssert relEq vn ra b s

/-- CPNEQ (42 R262): SRCA <> SRCB. -/
def execCpneq (rc ra : RegNum) (b : SrcB) (s : State) : Result :=
  runCompare relNeq rc ra b s

/-- ASNEQ (42 R277): assert SRCA <> SRCB. -/
def execAsneq (vn : VecNum) (ra : RegNum) (b : SrcB) (s : State) : Result :=
  runAssert relNeq vn ra b s

/-- CPLT (42 R263): SRCA < SRCB. -/
def execCplt (rc ra : RegNum) (b : SrcB) (s : State) : Result :=
  runCompare relLt rc ra b s

/-- ASLT (42 R278): assert SRCA < SRCB. -/
def execAslt (vn : VecNum) (ra : RegNum) (b : SrcB) (s : State) : Result :=
  runAssert relLt vn ra b s

/-- CPLTU (42 R264): SRCA < unsigned SRCB. -/
def execCpltu (rc ra : RegNum) (b : SrcB) (s : State) : Result :=
  runCompare relLtu rc ra b s

/-- ASLTU (42 R279): assert SRCA < unsigned SRCB. -/
def execAsltu (vn : VecNum) (ra : RegNum) (b : SrcB) (s : State) : Result :=
  runAssert relLtu vn ra b s

/-- CPLE (42 R265): SRCA <= SRCB. -/
def execCple (rc ra : RegNum) (b : SrcB) (s : State) : Result :=
  runCompare relLe rc ra b s

/-- ASLE (42 R280): assert SRCA <= SRCB. -/
def execAsle (vn : VecNum) (ra : RegNum) (b : SrcB) (s : State) : Result :=
  runAssert relLe vn ra b s

/-- CPLEU (42 R266): SRCA <= unsigned SRCB. -/
def execCpleu (rc ra : RegNum) (b : SrcB) (s : State) : Result :=
  runCompare relLeu rc ra b s

/-- ASLEU (42 R281): assert SRCA <= unsigned SRCB. -/
def execAsleu (vn : VecNum) (ra : RegNum) (b : SrcB) (s : State) : Result :=
  runAssert relLeu vn ra b s

/-- CPGT (42 R267): SRCA > SRCB. -/
def execCpgt (rc ra : RegNum) (b : SrcB) (s : State) : Result :=
  runCompare relGt rc ra b s

/-- ASGT (42 R282): assert SRCA > SRCB. -/
def execAsgt (vn : VecNum) (ra : RegNum) (b : SrcB) (s : State) : Result :=
  runAssert relGt vn ra b s

/-- CPGTU (42 R268): SRCA > unsigned SRCB. -/
def execCpgtu (rc ra : RegNum) (b : SrcB) (s : State) : Result :=
  runCompare relGtu rc ra b s

/-- ASGTU (42 R283): assert SRCA > unsigned SRCB. -/
def execAsgtu (vn : VecNum) (ra : RegNum) (b : SrcB) (s : State) : Result :=
  runAssert relGtu vn ra b s

/-- CPGE (42 R269): SRCA >= SRCB. -/
def execCpge (rc ra : RegNum) (b : SrcB) (s : State) : Result :=
  runCompare relGe rc ra b s

/-- ASGE (42 R284): assert SRCA >= SRCB. -/
def execAsge (vn : VecNum) (ra : RegNum) (b : SrcB) (s : State) : Result :=
  runAssert relGe vn ra b s

/-- CPGEU (42 R270): SRCA >= unsigned SRCB. -/
def execCpgeu (rc ra : RegNum) (b : SrcB) (s : State) : Result :=
  runCompare relGeu rc ra b s

/-- ASGEU (42 R285): assert SRCA >= unsigned SRCB. -/
def execAsgeu (vn : VecNum) (ra : RegNum) (b : SrcB) (s : State) : Result :=
  runAssert relGeu vn ra b s

/-- CPBYTE (42 R271): SRCA equal in some byte to SRCB. -/
def execCpbyte (rc ra : RegNum) (b : SrcB) (s : State) : Result :=
  runCompare relByte rc ra b s

end Sys2Proof.Machine
end

