-- ==== Sys2Proof/Machine/Logical.lean ====
section
/-! DEFINITION. The logical instructions (43). -/

namespace Sys2Proof.Machine

/-- Logical (43 R300): the result into the destination, N and Z. -/
def runLogical (f : Word → Word → Word) (rc ra : RegNum) (b : SrcB) (s : State) : Result :=
  withRRM rc ra b s fun c x y t =>
    writeThen true c (f x y) t fun u => .next (finish (u.setLogicFlags (f x y)))

/-- AND (43 R301): `x &&& y` with x = SRCA, y = SRCB. -/
def execAnd (rc ra : RegNum) (b : SrcB) (s : State) : Result :=
  runLogical (fun x y => x &&& y) rc ra b s

/-- ANDN (43 R302): `x &&& ~~~y` with x = SRCA, y = SRCB. -/
def execAndn (rc ra : RegNum) (b : SrcB) (s : State) : Result :=
  runLogical (fun x y => x &&& ~~~y) rc ra b s

/-- NAND (43 R303): `~~~(x &&& y)` with x = SRCA, y = SRCB. -/
def execNand (rc ra : RegNum) (b : SrcB) (s : State) : Result :=
  runLogical (fun x y => ~~~(x &&& y)) rc ra b s

/-- NOR (43 R304): `~~~(x ||| y)` with x = SRCA, y = SRCB. -/
def execNor (rc ra : RegNum) (b : SrcB) (s : State) : Result :=
  runLogical (fun x y => ~~~(x ||| y)) rc ra b s

/-- OR (43 R305): `x ||| y` with x = SRCA, y = SRCB. -/
def execOr (rc ra : RegNum) (b : SrcB) (s : State) : Result :=
  runLogical (fun x y => x ||| y) rc ra b s

/-- XNOR (43 R306): `~~~(x ^^^ y)` with x = SRCA, y = SRCB. -/
def execXnor (rc ra : RegNum) (b : SrcB) (s : State) : Result :=
  runLogical (fun x y => ~~~(x ^^^ y)) rc ra b s

/-- XOR (43 R307): `x ^^^ y` with x = SRCA, y = SRCB. -/
def execXor (rc ra : RegNum) (b : SrcB) (s : State) : Result :=
  runLogical (fun x y => x ^^^ y) rc ra b s

end Sys2Proof.Machine
end

