-- ==== Sys2Proof/Machine/Shift.lean ====
section
/-! DEFINITION. The shift instructions (44). -/

namespace Sys2Proof.Machine

/-- An instruction that only moves a computed word to its destination; no flags, not of the arithmetic class. -/
def runPlain (f : Word → Word → State → Word) (rc ra : RegNum) (b : SrcB) (s : State) : Result :=
  withRRM rc ra b s fun c x y t => writeFinish false c (f x y t) t

/-- The shift count: bits 4-0 of SRCB (44 R316). -/
def shiftCount (y : Word) : Nat := y.toNat % 32

/-- The funnel shift (44 R320): the high word of SRCA // SRCB shifted left. -/
def funnel (x y : Word) (n : Nat) : Word := ((x ++ y) <<< n).extractLsb' 32 32

/-- SLL (44 R317): left, zero fill. -/
def execSll (rc ra : RegNum) (b : SrcB) (s : State) : Result :=
  runPlain (fun x y _ => x <<< shiftCount y) rc ra b s

/-- SRL (44 R318): right, zero fill. -/
def execSrl (rc ra : RegNum) (b : SrcB) (s : State) : Result :=
  runPlain (fun x y _ => x >>> shiftCount y) rc ra b s

/-- SRA (44 R319): right, sign fill. -/
def execSra (rc ra : RegNum) (b : SrcB) (s : State) : Result :=
  runPlain (fun x y _ => x.sshiftRight (shiftCount y)) rc ra b s

/-- EXTRACT (44 R320): a word out of SRCA // SRCB at FC. -/
def execExtract (rc ra : RegNum) (b : SrcB) (s : State) : Result :=
  runPlain (fun x y t => funnel x y t.fc.toNat) rc ra b s

end Sys2Proof.Machine
end

