-- ==== Sys2Proof/Machine/DataMove.lean ====
section
/-! DEFINITION. Loads and stores, byte and half-word moves, the TLB moves (45). -/

namespace Sys2Proof.Machine

/-! ### Bytes and half-words (45 R352) -/

/-- byte(x, k). -/
def byteAtBp (x : Word) (k : BitVec 2) : Byte := byteOfWord x k.toNat

/-- half(x, h). -/
def halfAtBp (x : Word) (h : Bool) : Half := if h then bits x 0 16 else bits x 16 16

/-- x with byte k replaced. -/
def insertByte (x : Word) (k : BitVec 2) (v : Byte) : Word := putBits x (24 - 8 * k.toNat) v

/-- x with half-word h replaced. -/
def insertHalf (x : Word) (h : Bool) (v : Half) : Word := putBits x (if h then 0 else 16) v

/-- ALU.BP[1], which selects a half-word. -/
def State.bpHalf (s : State) : Bool := bit s.alu 6

/-- EXBYTE (45 R342): the byte of SRCA that BP selects into the low byte of SRCB. -/
def execExbyte (rc ra : RegNum) (b : SrcB) (s : State) : Result :=
  runPlain (fun x y t => putBits y 0 (byteAtBp x t.bp)) rc ra b s

/-- EXHW (45 R343): the half-word of SRCA that BP selects into the low half of SRCB. -/
def execExhw (rc ra : RegNum) (b : SrcB) (s : State) : Result :=
  runPlain (fun x y t => putBits y 0 (halfAtBp x t.bpHalf)) rc ra b s

/-- INBYTE (45 R345): the low byte of SRCB into the byte of SRCA that BP selects. -/
def execInbyte (rc ra : RegNum) (b : SrcB) (s : State) : Result :=
  runPlain (fun x y t => insertByte x t.bp (bits y 0 8)) rc ra b s

/-- INHW (45 R346): the low half of SRCB into the half-word of SRCA that BP selects. -/
def execInhw (rc ra : RegNum) (b : SrcB) (s : State) : Result :=
  runPlain (fun x y t => insertHalf x t.bpHalf (bits y 0 16)) rc ra b s

/-- EXHWS (45 R344): the half-word of SRCA that BP selects, sign-extended. -/
def execExhws (rc ra : RegNum) (s : State) : Result :=
  match resolve .C rc s, resolve .A ra s with
  | some c, some a =>
    guarded (isProtected s c || isProtected s a) s
      (writeFinish false c (sext (halfAtBp (readReg 3 a s) s.bpHalf)) s.enter)
  | _, _ => .refused .localsUnpredictable

/-- LOAD (45 R333): load. -/
def execLoad (cntl : BitVec 8) (ra : RegNum) (b : SrcB) (s : State) : Result :=
  runLoad cntl ra b s

/-- LOADL (45 R334): identical to LOAD. -/
def execLoadl (cntl : BitVec 8) (ra : RegNum) (b : SrcB) (s : State) : Result :=
  runLoad cntl ra b s

/-- LOADSET (45 R337): load, then all ones stored. -/
def execLoadset (cntl : BitVec 8) (ra : RegNum) (b : SrcB) (s : State) : Result :=
  runLoadSet cntl ra b s

/-- STORE (45 R335): store. -/
def execStore (cntl : BitVec 8) (ra : RegNum) (b : SrcB) (s : State) : Result :=
  runStore cntl ra b s

/-- STOREL (45 R336): identical to STORE. -/
def execStorel (cntl : BitVec 8) (ra : RegNum) (b : SrcB) (s : State) : Result :=
  runStore cntl ra b s

/-- LOADM (45 R340): load multiple. -/
def execLoadm (cntl : BitVec 8) (ra : RegNum) (b : SrcB) (s : State) : Result :=
  runMultiple true cntl ra b s

/-- STOREM (45 R341): store multiple. -/
def execStorem (cntl : BitVec 8) (ra : RegNum) (b : SrcB) (s : State) : Result :=
  runMultiple false cntl ra b s

/-- An instruction that only checks its privilege (45 R350, R351, 49 R444). -/
def runPrivilegedNop (s : State) : Result := guarded (!s.sm) s (.next (finish s.enter))

/-- MFTLB (45 R350): no operation but the privilege check; the destination is not written. -/
def execMftlb (_rc _ra : RegNum) (s : State) : Result :=
  runPrivilegedNop s

/-- MTTLB (45 R351): no operation but the privilege check. -/
def execMttlb (_ra _rb : RegNum) (s : State) : Result :=
  runPrivilegedNop s

end Sys2Proof.Machine
end

