-- ==== Sys2Proof/Machine/Constant.lean ====
section
/-! DEFINITION. The constant instructions (46). -/

namespace Sys2Proof.Machine

/-- A word computed from the old value of RA into RA. -/
def runConst (f : Word → Word) (ra : RegNum) (s : State) : Result :=
  match resolve .A ra s with
  | some n => guarded (isProtected s n) s (writeFinish false n (f (readReg 3 n s)) s.enter)
  | none => .refused .localsUnpredictable

/-- CONST (46 R371): 0x0000 // I16. -/
def execConst (ra : RegNum) (imm : BitVec 16) (s : State) : Result :=
  runConst (fun _ => zext imm) ra s

/-- CONSTH (46 R372): I16 over the low half. -/
def execConsth (ra : RegNum) (imm : BitVec 16) (s : State) : Result :=
  runConst (fun x => putBits x 16 imm) ra s

/-- CONSTN (46 R373): 0xFFFF // I16. -/
def execConstn (ra : RegNum) (imm : BitVec 16) (s : State) : Result :=
  runConst (fun _ => 0xFFFF#16 ++ imm) ra s

end Sys2Proof.Machine
end

