-- ==== Sys2Proof/Machine/Special.lean ====
section
/-! DEFINITION. Special-purpose registers and the instructions that read and write them (10 R29-R51, 45 R347-R349,
70 R724). -/

namespace Sys2Proof.Machine

/-- Accesses that trap whatever the register file says (10 R31): the virtual numbers in both modes, the protected
numbers in User mode. -/
def sprViolation (s : State) (n : SprNum) : Bool := decide (160 ≤ n.toNat) || (!s.sm && decide (n.toNat < 128))

/-- A frozen register as MFSR reads it: open in its implemented bits while FZ = 0 or right after (93 U7). -/
def frozenRead (s : State) (mask v : Word) : Word := if s.pcsUnsettled then s.freeWord 6 &&& mask else v

/-- SPR_read (45 R347): reserved bits read 0; slot 6 is the open value of an unimplemented number (93 U2) or of a
register in transition (93 U7). DESIGN CHOICE (log 15): CR, the window on the count in CHC, always reads as stored, also
where CHC itself is open (10 R51; 93 U7 names CHC only). -/
def sprRead (n : SprNum) (s : State) : Word :=
  match n.toNat with
  | 0 => s.vab
  | 1 => s.ops
  | 2 => cpsValue s
  | 3 => zext Config.prl <<< 24
  | 4 => frozenRead s 0xFFFFFFFF s.cha
  | 5 => frozenRead s 0xFFFFFFFF s.chd
  | 6 => frozenRead s chcMask s.chc
  | 7 => s.rbp
  | 8 => s.tmc
  | 9 => s.tmr
  | 10 => frozenRead s 0xFFFFFFFC s.pc0
  | 11 => frozenRead s 0xFFFFFFFC s.pc1
  | 12 => frozenRead s 0xFFFFFFFC s.pc2
  | 128 => s.ipc
  | 129 => s.ipa
  | 130 => s.ipb
  | 131 => s.q
  | 132 => s.alu
  | 133 => zext s.bp
  | 134 => zext s.fc
  | 135 => zext s.cr
  | _ => s.freeWord 6

/-- A write of CPS sets FZ. -/
def State.freezes (s : State) (v : Word) : Bool := !s.fz && bit v 10

/-- A write of CPS (70 R724): FZ 1 to 0 leaves the frozen registers in transition for two instructions, FZ 0 to 1
freezes PC0-PC2 at values the pipeline gave them. -/
def State.writeCps (s : State) (v : Word) : State :=
  { s with
    cps := v &&& cpsMask
    fzSettle := if s.fz && !bit v 10 then 3 else s.fzSettle
    pc0 := if s.freezes v then wordAligned (s.freeWord 5) else s.pc0
    pc1 := if s.freezes v then wordAligned (s.freeWord 6) else s.pc1
    pc2 := if s.freezes v then wordAligned (s.freeWord 7) else s.pc2 }

/-- SPR_write (45 R348): only implemented bits are written; an unimplemented number takes no effect, 13-127 in
Supervisor mode by the ruling of 93 U2 (log 18). -/
def sprWrite (n : SprNum) (v : Word) (s : State) : State :=
  match n.toNat with
  | 0 => { s with vab := v &&& 0xFFFFFC00 }
  | 1 => { s with ops := v &&& opsMask }
  | 2 => s.writeCps v
  | 3 => s
  | 4 => { s with cha := v }
  | 5 => { s with chd := v }
  | 6 => { s with chc := v &&& chcMask, chcMl := bit v 14 }
  | 7 => { s with rbp := v &&& 0xFFFF }
  | 8 => { s with tmc := v &&& 0x00FFFFFF }
  | 9 => { s with tmr := v &&& 0x07FFFFFF }
  | 10 => { s with pc0 := wordAligned v }
  | 11 => { s with pc1 := wordAligned v }
  | 12 => { s with pc2 := wordAligned v }
  | 128 => s.writeIpc (bits v 2 8)
  | 129 => s.writeIpa (bits v 2 8)
  | 130 => s.writeIpb (bits v 2 8)
  | 131 => { s with q := v }
  | 132 => { s with alu := v &&& aluMask }
  | 133 => { s with alu := putBits s.alu 5 (bits v 0 2 : BitVec 2) }
  | 134 => { s with alu := putBits s.alu 0 (bits v 0 5 : BitVec 5) }
  | 135 => { s with chc := putBits s.chc 16 (bits v 0 8 : BitVec 8) }
  | _ => s

/-- MFSR (45 R347): a special register into a general-purpose register. The number is checked before the register. -/
def execMfsr (rc : RegNum) (sa : SprNum) (s : State) : Result :=
  guarded (sprViolation s sa) s
    (match resolve .C rc s with
     | some c => guarded (isProtected s c) s (writeFinish false c (sprRead sa s.enter) s.enter)
     | none => .refused .localsUnpredictable)

/-- MTSR (45 R348): a general-purpose register into a special register. -/
def execMtsr (sa : SprNum) (rb : RegNum) (s : State) : Result :=
  guarded (sprViolation s sa) s
    (match resolve .B rb s with
     | some n => guarded (isProtected s n) s (.next (finish (sprWrite sa (readReg 4 n s) s.enter)))
     | none => .refused .localsUnpredictable)

/-- MTSRIM (45 R349): a zero-extended constant into a special register. -/
def execMtsrim (sa : SprNum) (imm : BitVec 16) (s : State) : Result :=
  guarded (sprViolation s sa) s (.next (finish (sprWrite sa (zext imm) s.enter)))

end Sys2Proof.Machine
end

