-- ==== Sys2Proof/Machine/Branch.lean ====
section
/-! DEFINITION. Jumps and calls (48): all delayed by one instruction (48 R421). -/

namespace Sys2Proof.Machine

/-- TARGET of a JA format (30 R172). -/
def jumpTarget (abs : Bool) (disp : BitVec 16) (pc : Word) : Word :=
  if abs then zext disp <<< 2 else pc + (sext disp <<< 2)

/-- A branch that is taken or not: the delay instruction executes either way. -/
def branchTo (taken : Bool) (target : Word) (s : State) : State :=
  if taken then finishTo target s else finish s

/-- A conditional jump of the JA format: the test is on bit 31 of RA (48 R420). -/
def runJumpIf (sense : Bool) (abs : Bool) (ra : RegNum) (disp : BitVec 16) (s : State) : Result :=
  match resolve .A ra s with
  | some n =>
    guarded (isProtected s n) s
      (.next (branchTo (bit (readReg 3 n s) 31 == sense) (jumpTarget abs disp s.pc) s.enter))
  | none => .refused .localsUnpredictable

/-- A conditional jump through a register (48 R422). -/
def runJumpIfReg (sense : Bool) (ra rb : RegNum) (s : State) : Result :=
  match resolve .A ra s, resolve .B rb s with
  | some a, some n =>
    guarded (isProtected s a || isProtected s n) s
      (.next (branchTo (bit (readReg 3 a s) 31 == sense) (wordAligned (readReg 4 n s)) s.enter))
  | _, _ => .refused .localsUnpredictable

/-- A register written by a branch, then the transfer. -/
def writeBranch (n : AbsReg) (v : Word) (taken : Bool) (target : Word) (s : State) : Result :=
  writeThen false n v s fun u => .next (branchTo taken target u)

/-- JMP (48 R425): unconditional. -/
def execJmp (abs : Bool) (disp : BitVec 16) (s : State) : Result :=
  .next (branchTo true (jumpTarget abs disp s.pc) s.enter)

/-- JMPT (48 R427): if RA is TRUE. -/
def execJmpt (abs : Bool) (ra : RegNum) (disp : BitVec 16) (s : State) : Result :=
  runJumpIf true abs ra disp s

/-- JMPF (48 R429): if RA is FALSE. -/
def execJmpf (abs : Bool) (ra : RegNum) (disp : BitVec 16) (s : State) : Result :=
  runJumpIf false abs ra disp s

/-- JMPI (48 R426): through RB. -/
def execJmpi (rb : RegNum) (s : State) : Result :=
  match resolve .B rb s with
  | some n => guarded (isProtected s n) s (.next (branchTo true (wordAligned (readReg 4 n s)) s.enter))
  | none => .refused .localsUnpredictable

/-- JMPTI (48 R428): through RB if RA is TRUE. -/
def execJmpti (ra rb : RegNum) (s : State) : Result :=
  runJumpIfReg true ra rb s

/-- JMPFI (48 R430): through RB if RA is FALSE. -/
def execJmpfi (ra rb : RegNum) (s : State) : Result :=
  runJumpIfReg false ra rb s

/-- JMPFDEC (48 R431): RA decremented; jump if it was FALSE before. -/
def execJmpfdec (abs : Bool) (ra : RegNum) (disp : BitVec 16) (s : State) : Result :=
  match resolve .A ra s with
  | some n =>
    let x := readReg 3 n s
    guarded (isProtected s n) s (writeBranch n (x - 1) (!bit x 31) (jumpTarget abs disp s.pc) s.enter)
  | none => .refused .localsUnpredictable

/-- CALL (48 R423): the address of the second following instruction into RA, then the jump. -/
def execCall (abs : Bool) (ra : RegNum) (disp : BitVec 16) (s : State) : Result :=
  match resolve .A ra s with
  | some n => guarded (isProtected s n) s (writeBranch n (s.pc + 8) true (jumpTarget abs disp s.pc) s.enter)
  | none => .refused .localsUnpredictable

/-- CALLI (48 R424): CALL through RB, which is read before RA is written. -/
def execCalli (ra rb : RegNum) (s : State) : Result :=
  match resolve .A ra s, resolve .B rb s with
  | some a, some n =>
    guarded (isProtected s a || isProtected s n) s
      (writeBranch a (s.pc + 8) true (wordAligned (readReg 4 n s)) s.enter)
  | _, _ => .refused .localsUnpredictable

end Sys2Proof.Machine
end

