-- ==== Sys2Proof/Machine/Float.lean ====
section
/-! DEFINITION. The floating-point instructions: the hardware sets the indirect pointers and traps (47 R380-R402,
41 R240). -/

namespace Sys2Proof.Machine

/-- FADD (47 R385): traps to vector 48. -/
def execFadd (rc ra rb : RegNum) (s : State) : Result :=
  runTrapping 0xF0 rc ra rb s

/-- DADD (47 R386): traps to vector 49. -/
def execDadd (rc ra rb : RegNum) (s : State) : Result :=
  runTrapping 0xF1 rc ra rb s

/-- FSUB (47 R387): traps to vector 50. -/
def execFsub (rc ra rb : RegNum) (s : State) : Result :=
  runTrapping 0xF2 rc ra rb s

/-- DSUB (47 R388): traps to vector 51. -/
def execDsub (rc ra rb : RegNum) (s : State) : Result :=
  runTrapping 0xF3 rc ra rb s

/-- FMUL (47 R389): traps to vector 52. -/
def execFmul (rc ra rb : RegNum) (s : State) : Result :=
  runTrapping 0xF4 rc ra rb s

/-- DMUL (47 R390): traps to vector 53. -/
def execDmul (rc ra rb : RegNum) (s : State) : Result :=
  runTrapping 0xF5 rc ra rb s

/-- FDIV (47 R391): traps to vector 54. -/
def execFdiv (rc ra rb : RegNum) (s : State) : Result :=
  runTrapping 0xF6 rc ra rb s

/-- DDIV (47 R392): traps to vector 55. -/
def execDdiv (rc ra rb : RegNum) (s : State) : Result :=
  runTrapping 0xF7 rc ra rb s

/-- FDMUL (47 R393): traps to vector 57. -/
def execFdmul (rc ra rb : RegNum) (s : State) : Result :=
  runTrapping 0xF9 rc ra rb s

/-- FEQ (47 R394): traps to vector 42. -/
def execFeq (rc ra rb : RegNum) (s : State) : Result :=
  runTrapping 0xEA rc ra rb s

/-- DEQ (47 R395): traps to vector 43. -/
def execDeq (rc ra rb : RegNum) (s : State) : Result :=
  runTrapping 0xEB rc ra rb s

/-- FGT (47 R396): traps to vector 44. -/
def execFgt (rc ra rb : RegNum) (s : State) : Result :=
  runTrapping 0xEC rc ra rb s

/-- DGT (47 R397): traps to vector 45. -/
def execDgt (rc ra rb : RegNum) (s : State) : Result :=
  runTrapping 0xED rc ra rb s

/-- FGE (47 R398): traps to vector 46. -/
def execFge (rc ra rb : RegNum) (s : State) : Result :=
  runTrapping 0xEE rc ra rb s

/-- DGE (47 R399): traps to vector 47. -/
def execDge (rc ra rb : RegNum) (s : State) : Result :=
  runTrapping 0xEF rc ra rb s

/-- CONVERT (47 R400): traps to vector 36; the control byte is treated as a register number (47 R382, D14). -/
def execConvert (rc ra : RegNum) (ui : BitVec 1) (rnd : BitVec 3) (fd fs : BitVec 2) (s : State) : Result :=
  runTrapping 0xE4 rc ra (convertByte ui rnd fd fs) s

/-- SQRT (47 R401): traps to vector 37 (47 R382). -/
def execSqrt (rc ra : RegNum) (ctl : BitVec 8) (s : State) : Result :=
  runTrapping 0xE5 rc ra ctl s

/-- CLASS (47 R402): traps to vector 38 (47 R382). -/
def execCls (rc ra : RegNum) (ctl : BitVec 8) (s : State) : Result :=
  runTrapping 0xE6 rc ra ctl s

end Sys2Proof.Machine
end

