-- ==== Sys2Proof/Machine/Misc.lean ====
section
/-! DEFINITION. The miscellaneous instructions (49), and which instruction would take a Curr-kind trap (49 R449). -/

namespace Sys2Proof.Machine

/-- Leading zeros of a word, at most `n` bits looked at from bit 31 down. -/
def leadingZeros : Nat → Word → Nat
  | 0, _ => 0
  | n + 1, x => if bit x 31 then 0 else leadingZeros n (x <<< 1) + 1

/-- CLZ (49 R441): the number of zero bits above the first one bit, 32 for zero. -/
def execClz (rc : RegNum) (b : SrcB) (s : State) : Result :=
  withRM rc b s fun c y t => writeFinish false c (BitVec.ofNat 32 (leadingZeros 32 y)) t

/-- SETIP (49 R442): the three indirect pointers from the absolute numbers of the operands. -/
def execSetip (rc ra rb : RegNum) (s : State) : Result :=
  match resolveNumbers rc ra rb s with
  | none => .refused .localsUnpredictable
  | some n => guarded (n.isProtected s) s (.next (finish (s.enter.setPointers n)))

/-- IPA and IPB from the operands, IPC open in its number bits (49 R443, 93 U20). -/
def State.setEmulatePointers (s : State) (a b : AbsReg) : State :=
  s.setPointers { c := bits (s.freeWord 6) 0 8, a := a, b := b }

/-- EMULATE (49 R443): the pointers, then the trap; in User mode a vector below 64 is a Protection Violation. DESIGN CHOICE
(log 11): also while DA = 1, where it is refused like any Protection Violation (D19), as 60 R460 has the violation "for
EMULATE always"; 30 R184 ties it to the trap that would be taken, so that the pointers would be set instead (D17). -/
def execEmulate (vn : VecNum) (ra rb : RegNum) (s : State) : Result :=
  match resolve .A ra s, resolve .B rb s with
  | some a, some b =>
    guarded (isProtected s a || isProtected s b || reservedVector s vn) s
      (trapNext vn (s.enter.setEmulatePointers a b))
  | _, _ => .refused .localsUnpredictable

/-- INV (49 R444): no operation but the privilege check. -/
def execInv (s : State) : Result :=
  runPrivilegedNop s

/-- IRET (49 R447): the interrupt return sequence. -/
def execIret (s : State) : Result :=
  guarded (!s.sm) s (interruptReturn s)

/-- IRETINV (49 R448): identical to IRET. -/
def execIretinv (s : State) : Result :=
  guarded (!s.sm) s (interruptReturn s)

/-! ### The instruction after a HALT (49 R449) -/

/-- A number that resolves to a protected register. -/
def badReg (p : Pos) (f : RegNum) (s : State) : Bool := (resolve p f s).any (isProtected s)

/-- A second source that is a protected register. -/
def badSrc (b : SrcB) (s : State) : Bool := (resolveSrc b s).any fun y => y.isProtected s

/-- A protected register among destination and sources. -/
def bad3 (rc ra : RegNum) (b : SrcB) (s : State) : Bool := badReg .C rc s || badReg .A ra s || badSrc b s

/-- A protected register among three register numbers. -/
def badNumbers (rc ra rb : RegNum) (s : State) : Bool := badReg .C rc s || badReg .A ra s || badReg .B rb s

/-- A failing assert with a reserved vector in User mode, or a protected source (42 R275). -/
def badAssert (rel : Word → Word → Bool) (vn : VecNum) (ra : RegNum) (b : SrcB) (s : State) : Bool :=
  badReg .A ra s || badSrc b s ||
    (reservedVector s vn && (operandsAB ra b s).any fun o => !rel (o.va s) (o.vb s))

/-- Whether an instruction would end in a Protection Violation before it acts (60 R466 step 6), DA = 0. -/
def protectionViolation (i : Instr) (s : State) : Bool :=
  match i with
  | .constn ra _ | .consth ra _ | .const ra _ | .jmpf _ ra _ | .call _ ra _ | .jmpt _ ra _ | .jmpfdec _ ra _ =>
    badReg .A ra s
  | .mtsrim sa _ => sprViolation s sa
  | .mtsr sa rb => sprViolation s sa || badReg .B rb s
  | .mfsr rc sa => sprViolation s sa || badReg .C rc s
  | .loadl _ ra b | .load _ ra b | .loadset _ ra b | .loadm _ ra b
  | .storel _ ra b | .store _ ra b | .storem _ ra b => badReg .A ra s || badSrc b s
  | .clz rc b | .div0 rc b => badReg .C rc s || badSrc b s
  | .exhws rc ra => badReg .C rc s || badReg .A ra s
  | .adds rc ra b | .addu rc ra b | .add rc ra b | .addcs rc ra b | .addcu rc ra b | .addc rc ra b
  | .subs rc ra b | .subu rc ra b | .sub rc ra b | .subcs rc ra b | .subcu rc ra b | .subc rc ra b
  | .subrs rc ra b | .subru rc ra b | .subr rc ra b | .subrcs rc ra b | .subrcu rc ra b | .subrc rc ra b
  | .cpbyte rc ra b | .cplt rc ra b | .cpltu rc ra b | .cple rc ra b | .cpleu rc ra b | .cpgt rc ra b
  | .cpgtu rc ra b | .cpge rc ra b | .cpgeu rc ra b | .cpeq rc ra b | .cpneq rc ra b
  | .mul rc ra b | .mull rc ra b | .mulu rc ra b | .div rc ra b | .divl rc ra b | .divrem rc ra b
  | .exbyte rc ra b | .inbyte rc ra b | .exhw rc ra b | .inhw rc ra b | .extract rc ra b
  | .sll rc ra b | .srl rc ra b | .sra rc ra b
  | .and rc ra b | .or rc ra b | .xor rc ra b | .xnor rc ra b | .nor rc ra b | .nand rc ra b | .andn rc ra b =>
    bad3 rc ra b s
  | .aslt vn ra b => badAssert relLt vn ra b s
  | .asltu vn ra b => badAssert relLtu vn ra b s
  | .asle vn ra b => badAssert relLe vn ra b s
  | .asleu vn ra b => badAssert relLeu vn ra b s
  | .asgt vn ra b => badAssert relGt vn ra b s
  | .asgtu vn ra b => badAssert relGtu vn ra b s
  | .asge vn ra b => badAssert relGe vn ra b s
  | .asgeu vn ra b => badAssert relGeu vn ra b s
  | .aseq vn ra b => badAssert relEq vn ra b s
  | .asneq vn ra b => badAssert relNeq vn ra b s
  | .iret | .iretinv | .inv | .mftlb _ _ | .mttlb _ _ => !s.sm
  | .halt => !s.sm && !s.dbg.haltUnprotected
  | .jmp _ _ => false
  | .jmpi rb => badReg .B rb s
  | .jmpfi ra rb | .calli ra rb | .jmpti ra rb => badReg .A ra s || badReg .B rb s
  | .emulate vn ra rb => badReg .A ra s || badReg .B rb s || reservedVector s vn
  | .convert rc ra ui rnd fd fs => badNumbers rc ra (convertByte ui rnd fd fs) s
  | .sqrt rc ra ctl | .cls rc ra ctl => badNumbers rc ra ctl s
  | .setip rc ra rb | .multm rc ra rb | .multmu rc ra rb | .multiply rc ra rb | .divide rc ra rb
  | .multiplu rc ra rb | .dividu rc ra rb | .feq rc ra rb | .deq rc ra rb | .fgt rc ra rb | .dgt rc ra rb
  | .fge rc ra rb | .dge rc ra rb | .fadd rc ra rb | .dadd rc ra rb | .fsub rc ra rb | .dsub rc ra rb
  | .fmul rc ra rb | .dmul rc ra rb | .fdiv rc ra rb | .ddiv rc ra rb | .fdmul rc ra rb =>
    badNumbers rc ra rb s

/-- Whether the instruction at pc takes a Curr-kind trap (60 R466 steps 4-6). -/
def currTrapAtPc (s : State) : Bool :=
  match fetch s s.pc with
  | .miss => true
  | .absent => false
  | .word w =>
    match decode w with
    | .illegal _ => true
    | .emulation _ rc ra rb => badNumbers rc ra rb s
    | .instr i => protectionViolation i s

/-- Whether a trap comes between a HALT and Halt mode: of the following instruction, or asynchronous; none while
DA = 1. -/
def trapBeforeHalt (s : State) : Bool := !s.da && (currTrapAtPc s || (asyncEvent s).isSome)

/-- Halt mode, unless a trap comes first (49 R449). DESIGN CHOICE (log 45): that trap is left to the next core step, so that
where another agent removes its cause before then the following instruction executes, and no Halt mode is entered. -/
def haltOrTrap (s : State) : State := if trapBeforeHalt s then s else { s with mode := .halt }

/-- HALT (49 R449): enter Halt mode; a debug host may have disabled its protection. -/
def execHalt (s : State) : Result :=
  guarded (!s.sm && !s.dbg.haltUnprotected) s (.next (haltOrTrap (finish s.enter)))

end Sys2Proof.Machine
end

