-- ==== Sys2Proof/Machine/Dispatch.lean ====
section
/-! DEFINITION. The meaning of every instruction: one arm per constructor of Instr. -/

namespace Sys2Proof.Machine

def exec (i : Instr) (s : State) : Host.Outcome State Fault Refusal :=
  match i with
  | .constn ra imm => Sys2Proof.Machine.execConstn ra imm s
  | .consth ra imm => Sys2Proof.Machine.execConsth ra imm s
  | .const ra imm => Sys2Proof.Machine.execConst ra imm s
  | .mtsrim sa imm => Sys2Proof.Machine.execMtsrim sa imm s
  | .loadl cntl ra b => Sys2Proof.Machine.execLoadl cntl ra b s
  | .clz rc b => Sys2Proof.Machine.execClz rc b s
  | .exbyte rc ra b => Sys2Proof.Machine.execExbyte rc ra b s
  | .inbyte rc ra b => Sys2Proof.Machine.execInbyte rc ra b s
  | .storel cntl ra b => Sys2Proof.Machine.execStorel cntl ra b s
  | .adds rc ra b => Sys2Proof.Machine.execAdds rc ra b s
  | .addu rc ra b => Sys2Proof.Machine.execAddu rc ra b s
  | .add rc ra b => Sys2Proof.Machine.execAdd rc ra b s
  | .load cntl ra b => Sys2Proof.Machine.execLoad cntl ra b s
  | .addcs rc ra b => Sys2Proof.Machine.execAddcs rc ra b s
  | .addcu rc ra b => Sys2Proof.Machine.execAddcu rc ra b s
  | .addc rc ra b => Sys2Proof.Machine.execAddc rc ra b s
  | .store cntl ra b => Sys2Proof.Machine.execStore cntl ra b s
  | .subs rc ra b => Sys2Proof.Machine.execSubs rc ra b s
  | .subu rc ra b => Sys2Proof.Machine.execSubu rc ra b s
  | .sub rc ra b => Sys2Proof.Machine.execSub rc ra b s
  | .loadset cntl ra b => Sys2Proof.Machine.execLoadset cntl ra b s
  | .subcs rc ra b => Sys2Proof.Machine.execSubcs rc ra b s
  | .subcu rc ra b => Sys2Proof.Machine.execSubcu rc ra b s
  | .subc rc ra b => Sys2Proof.Machine.execSubc rc ra b s
  | .cpbyte rc ra b => Sys2Proof.Machine.execCpbyte rc ra b s
  | .subrs rc ra b => Sys2Proof.Machine.execSubrs rc ra b s
  | .subru rc ra b => Sys2Proof.Machine.execSubru rc ra b s
  | .subr rc ra b => Sys2Proof.Machine.execSubr rc ra b s
  | .loadm cntl ra b => Sys2Proof.Machine.execLoadm cntl ra b s
  | .subrcs rc ra b => Sys2Proof.Machine.execSubrcs rc ra b s
  | .subrcu rc ra b => Sys2Proof.Machine.execSubrcu rc ra b s
  | .subrc rc ra b => Sys2Proof.Machine.execSubrc rc ra b s
  | .storem cntl ra b => Sys2Proof.Machine.execStorem cntl ra b s
  | .cplt rc ra b => Sys2Proof.Machine.execCplt rc ra b s
  | .cpltu rc ra b => Sys2Proof.Machine.execCpltu rc ra b s
  | .cple rc ra b => Sys2Proof.Machine.execCple rc ra b s
  | .cpleu rc ra b => Sys2Proof.Machine.execCpleu rc ra b s
  | .cpgt rc ra b => Sys2Proof.Machine.execCpgt rc ra b s
  | .cpgtu rc ra b => Sys2Proof.Machine.execCpgtu rc ra b s
  | .cpge rc ra b => Sys2Proof.Machine.execCpge rc ra b s
  | .cpgeu rc ra b => Sys2Proof.Machine.execCpgeu rc ra b s
  | .aslt vn ra b => Sys2Proof.Machine.execAslt vn ra b s
  | .asltu vn ra b => Sys2Proof.Machine.execAsltu vn ra b s
  | .asle vn ra b => Sys2Proof.Machine.execAsle vn ra b s
  | .asleu vn ra b => Sys2Proof.Machine.execAsleu vn ra b s
  | .asgt vn ra b => Sys2Proof.Machine.execAsgt vn ra b s
  | .asgtu vn ra b => Sys2Proof.Machine.execAsgtu vn ra b s
  | .asge vn ra b => Sys2Proof.Machine.execAsge vn ra b s
  | .asgeu vn ra b => Sys2Proof.Machine.execAsgeu vn ra b s
  | .cpeq rc ra b => Sys2Proof.Machine.execCpeq rc ra b s
  | .cpneq rc ra b => Sys2Proof.Machine.execCpneq rc ra b s
  | .mul rc ra b => Sys2Proof.Machine.execMul rc ra b s
  | .mull rc ra b => Sys2Proof.Machine.execMull rc ra b s
  | .div0 rc b => Sys2Proof.Machine.execDiv0 rc b s
  | .div rc ra b => Sys2Proof.Machine.execDiv rc ra b s
  | .divl rc ra b => Sys2Proof.Machine.execDivl rc ra b s
  | .divrem rc ra b => Sys2Proof.Machine.execDivrem rc ra b s
  | .aseq vn ra b => Sys2Proof.Machine.execAseq vn ra b s
  | .asneq vn ra b => Sys2Proof.Machine.execAsneq vn ra b s
  | .mulu rc ra b => Sys2Proof.Machine.execMulu rc ra b s
  | .inhw rc ra b => Sys2Proof.Machine.execInhw rc ra b s
  | .extract rc ra b => Sys2Proof.Machine.execExtract rc ra b s
  | .exhw rc ra b => Sys2Proof.Machine.execExhw rc ra b s
  | .exhws rc ra => Sys2Proof.Machine.execExhws rc ra s
  | .sll rc ra b => Sys2Proof.Machine.execSll rc ra b s
  | .srl rc ra b => Sys2Proof.Machine.execSrl rc ra b s
  | .sra rc ra b => Sys2Proof.Machine.execSra rc ra b s
  | .iret => Sys2Proof.Machine.execIret s
  | .halt => Sys2Proof.Machine.execHalt s
  | .iretinv => Sys2Proof.Machine.execIretinv s
  | .and rc ra b => Sys2Proof.Machine.execAnd rc ra b s
  | .or rc ra b => Sys2Proof.Machine.execOr rc ra b s
  | .xor rc ra b => Sys2Proof.Machine.execXor rc ra b s
  | .xnor rc ra b => Sys2Proof.Machine.execXnor rc ra b s
  | .nor rc ra b => Sys2Proof.Machine.execNor rc ra b s
  | .nand rc ra b => Sys2Proof.Machine.execNand rc ra b s
  | .andn rc ra b => Sys2Proof.Machine.execAndn rc ra b s
  | .setip rc ra rb => Sys2Proof.Machine.execSetip rc ra rb s
  | .inv => Sys2Proof.Machine.execInv s
  | .jmp abs disp => Sys2Proof.Machine.execJmp abs disp s
  | .jmpf abs ra disp => Sys2Proof.Machine.execJmpf abs ra disp s
  | .call abs ra disp => Sys2Proof.Machine.execCall abs ra disp s
  | .jmpt abs ra disp => Sys2Proof.Machine.execJmpt abs ra disp s
  | .jmpfdec abs ra disp => Sys2Proof.Machine.execJmpfdec abs ra disp s
  | .mftlb rc ra => Sys2Proof.Machine.execMftlb rc ra s
  | .mttlb ra rb => Sys2Proof.Machine.execMttlb ra rb s
  | .jmpi rb => Sys2Proof.Machine.execJmpi rb s
  | .jmpfi ra rb => Sys2Proof.Machine.execJmpfi ra rb s
  | .mfsr rc sa => Sys2Proof.Machine.execMfsr rc sa s
  | .calli ra rb => Sys2Proof.Machine.execCalli ra rb s
  | .jmpti ra rb => Sys2Proof.Machine.execJmpti ra rb s
  | .mtsr sa rb => Sys2Proof.Machine.execMtsr sa rb s
  | .emulate vn ra rb => Sys2Proof.Machine.execEmulate vn ra rb s
  | .multm rc ra rb => Sys2Proof.Machine.execMultm rc ra rb s
  | .multmu rc ra rb => Sys2Proof.Machine.execMultmu rc ra rb s
  | .multiply rc ra rb => Sys2Proof.Machine.execMultiply rc ra rb s
  | .divide rc ra rb => Sys2Proof.Machine.execDivide rc ra rb s
  | .multiplu rc ra rb => Sys2Proof.Machine.execMultiplu rc ra rb s
  | .dividu rc ra rb => Sys2Proof.Machine.execDividu rc ra rb s
  | .convert rc ra ui rnd fd fs => Sys2Proof.Machine.execConvert rc ra ui rnd fd fs s
  | .sqrt rc ra ctl => Sys2Proof.Machine.execSqrt rc ra ctl s
  | .cls rc ra ctl => Sys2Proof.Machine.execCls rc ra ctl s
  | .feq rc ra rb => Sys2Proof.Machine.execFeq rc ra rb s
  | .deq rc ra rb => Sys2Proof.Machine.execDeq rc ra rb s
  | .fgt rc ra rb => Sys2Proof.Machine.execFgt rc ra rb s
  | .dgt rc ra rb => Sys2Proof.Machine.execDgt rc ra rb s
  | .fge rc ra rb => Sys2Proof.Machine.execFge rc ra rb s
  | .dge rc ra rb => Sys2Proof.Machine.execDge rc ra rb s
  | .fadd rc ra rb => Sys2Proof.Machine.execFadd rc ra rb s
  | .dadd rc ra rb => Sys2Proof.Machine.execDadd rc ra rb s
  | .fsub rc ra rb => Sys2Proof.Machine.execFsub rc ra rb s
  | .dsub rc ra rb => Sys2Proof.Machine.execDsub rc ra rb s
  | .fmul rc ra rb => Sys2Proof.Machine.execFmul rc ra rb s
  | .dmul rc ra rb => Sys2Proof.Machine.execDmul rc ra rb s
  | .fdiv rc ra rb => Sys2Proof.Machine.execFdiv rc ra rb s
  | .ddiv rc ra rb => Sys2Proof.Machine.execDdiv rc ra rb s
  | .fdmul rc ra rb => Sys2Proof.Machine.execFdmul rc ra rb s

end Sys2Proof.Machine
end

