-- ==== Sys2Proof/Machine/Cycle.lean ====
section
/-! DEFINITION. One step of the core (60 R466) and what happens around every core step: timer cycles, the access in
flight, the sampling of the I/O lines. -/

namespace Sys2Proof.Machine

/-- A state function applied to a next state. -/
def onNext (f : State → State) : Result → Result
  | .next s => .next (f s)
  | .fault r => .fault r
  | .refused r => .refused r

/-! ### The access in flight while later instructions execute (20 R120, 70 R731) -/

/-- The register a field names, if any. -/
def named (p : Pos) (f : RegNum) (s : State) : List AbsReg := (resolve p f s).toList

/-- The register of a second source. -/
def namedSrc (b : SrcB) (s : State) : List AbsReg :=
  match b with
  | .reg f => named .B f s
  | .imm _ => []

/-- The registers an instruction reads and writes, for those that can execute while an access is outstanding: the
multiples and the serializing instructions wait for it, loads, stores and returns have an access of their own, and the
trapping instructions only name registers. -/
def regUse (i : Instr) (s : State) : List AbsReg × List AbsReg :=
  match i with
  | .constn ra _ | .const ra _ | .call _ ra _ => ([], named .A ra s)
  | .consth ra _ | .jmpfdec _ ra _ => (named .A ra s, named .A ra s)
  | .jmpf _ ra _ | .jmpt _ ra _ => (named .A ra s, [])
  | .jmpi rb => (named .B rb s, [])
  | .jmpfi ra rb | .jmpti ra rb => (named .A ra s ++ named .B rb s, [])
  | .calli ra rb => (named .B rb s, named .A ra s)
  | .mfsr rc _ => ([], named .C rc s)
  | .clz rc b | .div0 rc b => (namedSrc b s, named .C rc s)
  | .exhws rc ra => (named .A ra s, named .C rc s)
  | .adds rc ra b | .addu rc ra b | .add rc ra b | .addcs rc ra b | .addcu rc ra b | .addc rc ra b
  | .subs rc ra b | .subu rc ra b | .sub rc ra b | .subcs rc ra b | .subcu rc ra b | .subc rc ra b
  | .subrs rc ra b | .subru rc ra b | .subr rc ra b | .subrcs rc ra b | .subrcu rc ra b | .subrc rc ra b
  | .cpbyte rc ra b | .cplt rc ra b | .cpltu rc ra b | .cple rc ra b | .cpleu rc ra b | .cpgt rc ra b
  | .cpgtu rc ra b | .cpge rc ra b | .cpgeu rc ra b | .cpeq rc ra b | .cpneq rc ra b
  | .mul rc ra b | .mull rc ra b | .mulu rc ra b | .div rc ra b | .divl rc ra b | .divrem rc ra b
  | .exbyte rc ra b | .inbyte rc ra b | .exhw rc ra b | .inhw rc ra b | .extract rc ra b
  | .sll rc ra b | .srl rc ra b | .sra rc ra b
  | .and rc ra b | .or rc ra b | .xor rc ra b | .xnor rc ra b | .nor rc ra b | .nand rc ra b | .andn rc ra b =>
    (named .A ra s ++ namedSrc b s, named .C rc s)
  | .aslt _ ra b | .asltu _ ra b | .asle _ ra b | .asleu _ ra b | .asgt _ ra b | .asgtu _ ra b | .asge _ ra b
  | .asgeu _ ra b | .aseq _ ra b | .asneq _ ra b => (named .A ra s ++ namedSrc b s, [])
  | .mtsrim _ _ | .mtsr _ _ | .mttlb _ _ | .halt | .iret | .iretinv | .loadm _ _ _ | .storem _ _ _
  | .loadl _ _ _ | .load _ _ _ | .loadset _ _ _ | .storel _ _ _ | .store _ _ _ | .jmp _ _ | .inv | .mftlb _ _
  | .setip _ _ _ | .emulate _ _ _ | .convert _ _ _ _ _ _ | .sqrt _ _ _ | .cls _ _ _ | .multm _ _ _ | .multmu _ _ _
  | .multiply _ _ _ | .divide _ _ _ | .multiplu _ _ _ | .dividu _ _ _ | .feq _ _ _ | .deq _ _ _ | .fgt _ _ _
  | .dgt _ _ _ | .fge _ _ _ | .dge _ _ _ | .fadd _ _ _ | .dadd _ _ _ | .fsub _ _ _ | .dsub _ _ _ | .fmul _ _ _
  | .dmul _ _ _ | .fdiv _ _ _ | .ddiv _ _ _ | .fdmul _ _ _ => ([], [])

/-- Instructions before which an outstanding access completes: those that serialize (70 R731) and the multiples. -/
def waitsForAccess : Instr → Bool
  | .mtsrim _ _ | .mtsr _ _ | .mttlb _ _ | .halt | .loadm _ _ _ | .storem _ _ _ => true
  | _ => false

/-- Instructions that leave an access of their own in flight, or none. -/
def hasOwnAccess : Instr → Bool
  | .load _ _ _ | .loadl _ _ _ | .loadset _ _ _ | .store _ _ _ | .storel _ _ _ | .iret | .iretinv => true
  | _ => false

/-- The access after a later instruction: one that reads the target of a load waits for it, one that overwrites it
makes the datum not needed (20 R120). -/
def Flight.after (f : Flight) (use : List AbsReg × List AbsReg) : Option Flight :=
  match f.load with
  | none => some f
  | some (n, _, _) =>
    if !f.needed then some f
    else if use.1.contains n then none
    else some { f with needed := !use.2.contains n }

/-- The access in flight once instruction i, begun in `s`, led to `t`. -/
def trackFlight (i : Instr) (s t : State) : State :=
  if hasOwnAccess i then t
  else t.launch (if waitsForAccess i then none else t.flight.bind fun f => f.after (regUse i s))

/-- An instruction of the table executed. -/
def runInstr (i : Instr) (s : State) : Result := onNext (trackFlight i s) (exec i s)

/-- The instruction word at pc executed: an instruction of the table, an operation code reserved for emulation
(30 R181), or an Illegal Opcode (60 R475). -/
def runWord (w : Word) (s : State) : Result :=
  match decode w with
  | .instr i => runInstr i s
  | .emulation op rc ra rb => runTrapping op rc ra rb s
  | .illegal _ => trapCurr vIllegal s

/-- Fetch at pc and execution (60 R466 steps 4-8). -/
def fetchAndRun (s : State) : Result :=
  match fetch s s.pc with
  | .word w => runWord w s
  | .miss => trapCurr (vInstrMiss s) s
  | .absent => .fault (.fetchAddress s.pc)

/-- Steps 0 and 2-8 of 60 R466: WARN, an asynchronous event, Wait mode, else an instruction; a multiple that waits for the
bus goes on, with its own tests. The timer counts the cycles of the step first, so that a value an instruction writes to
TMC or TMR stands (60 R486). -/
def coreCycle (s : State) : Result :=
  let t := advanceTimer s
  match s.multiple with
  | some m => resumeSequence m t
  | none =>
    if s.warnLatch then .next (takeWarn t)
    else
      match asyncEvent s with
      | some vn => takeTrap vn t
      | none => if s.wm then .next t.reserve else fetchAndRun t

/-- One core step, in which the I/O lines are sampled (61 R577). Outside the Executing mode only WARN acts (60 R461,
R466 step 1), and a multiple runs to its end (62 R689). DESIGN CHOICE (log 45): a HALT decides on Halt mode before the
lines are sampled at the end of its own step, so an interrupt of the I/O port latched there does not prevent it. -/
def coreStep (s : State) : Result :=
  if s.mode = .executing ∨ s.warnLatch ∨ s.multiple.isSome then onNext samplePio (coreCycle s) else .next s

/-! ### The instruction fetch as the host sets it up (log 6) -/

/-- Where the byte of the instruction word at `a` plus `k` is stored. -/
def fetchKey (s : State) (a : Word) (k : Nat) : Nat :=
  match locate s a with
  | .dram p _ => cellKey (wordAligned p) + k
  | _ => cellKey (wordAligned a) + k

/-- The four bytes of a word stored where the fetch at `a` reads them. -/
def placeWord (s : State) (a w : Word) : State :=
  { s with mem := Memory.putBytes s.mem (fetchKey s a 0) (wordBytes w) }

end Sys2Proof.Machine
end

