-- ==== Sys2Proof/Machine/Debug.lean ====
section
/-! DEFINITION. The debug host of the Am29200 as an agent: the CNTL field and the modes it selects, and instructions
injected through Load Test Instruction mode (62 R686-R695). The test access port is among the moves (Agents.lean). -/

namespace Sys2Proof.Machine

/-! ### Injected instructions (62 R690, R691) -/

/-- The state an injected instruction executes in: DA, SM and FZ are forced to 1 (D4), so that no change of FZ settles. -/
def State.forced (s : State) : State := { s with cps := s.cps ||| 0x411, fzSettle := 0 }

/-- Instructions the Load Test Instruction mode may execute (62 R690). -/
def injectable : Instr → Bool
  | .jmpt _ _ _ | .jmpf _ _ _ | .jmpti _ _ | .jmpfi _ _ | .jmpfdec _ _ _
  | .loadm _ _ _ | .storem _ _ _ | .iret | .iretinv => false
  | _ => true

/-- Whether an instruction is an unconditional jump or call, which sets the program counter. -/
def isJump : Instr → Bool
  | .jmp _ _ | .jmpi _ | .call _ _ _ | .calli _ _ => true
  | _ => false

/-- Whether an instruction writes the CPS Register. -/
def writesCps : Instr → Bool
  | .mtsr sa _ | .mtsrim sa _ => sa == 2
  | _ => false

/-- The register of a load with OPT = 110, whatever its address (log 25). -/
def scanLoad (i : Instr) (s : State) : Option AbsReg :=
  match i with
  | .load cntl ra _ | .loadl cntl ra _ | .loadset cntl ra _ => if cntlOpt cntl = 6 then resolve .A ra s else none
  | _ => none

/-- Whether an instruction is a load (true) or a store (62 R691). DESIGN CHOICE (log 40): LOADSET, which reads and writes,
counts as a load only. -/
def accessKind : Instr → Option Bool
  | .load _ _ _ | .loadl _ _ _ | .loadset _ _ _ => some true
  | .store _ _ _ | .storel _ _ _ => some false
  | _ => none

/-- A load directly after a store or a store directly after a load (62 R691). -/
def clashes (last now : Option Bool) : Bool := last.isSome && now.isSome && last != now

/-- MFSR as injected: under the forced status, but the CPS Register itself reads as it is. -/
def injectedMfsr (rc : RegNum) (sa : SprNum) (s : State) : Result :=
  match resolve .C rc s with
  | some c =>
    guarded (sprViolation s.forced sa) s.forced
      (writeFinish false c (if sa = 2 then cpsValue s else sprRead sa s.forced.enter) s.forced.enter)
  | none => .refused .localsUnpredictable

/-- The effect of an injected instruction before the program counter and CPS are put back. -/
def injectedEffect (i : Instr) (s : State) : Result :=
  match i with
  | .mfsr rc sa => injectedMfsr rc sa s
  | _ => exec i s.forced

/-- The program counter after an injected instruction: as before, or where a jump leads. -/
def injectedPc (jump : Bool) (s t : State) : State :=
  if jump then { t with pc := t.npc, npc := t.npc + 4, prevPc := s.prevPc }
  else { t with pc := s.pc, npc := s.npc, prevPc := s.prevPc }

/-- CPS after an injected instruction: as before, unless it wrote CPS; clearing FZ leaves the frozen registers in
transition for the two instructions that follow (70 R724). DESIGN CHOICE (log 40): so TE is copied into TP (60 R478) only
where the instruction wrote CPS. -/
def injectedCps (writes : Bool) (s t : State) : State :=
  { t with
    cps := if writes then t.cps else s.cps
    fzSettle := if writes && s.fz && !bit t.cps 10 then 2 else s.fzSettle - 1 }

/-- The datum of the OPT = 110 load of the step before arrives, the word of such a store shows at the end of the step and
until the next one (62 R691). -/
def completeScan (s : State) : Result :=
  let t := { s with dbg := { s.dbg with loadReg := none, storeWord := none, scanOut := s.dbg.storeWord } }
  match s.dbg.loadReg with
  | none => .next t
  | some n =>
    match writeReg false n s.dbg.scanIn t with
    | some u => .next { u with recent := s.recent }
    | none => .refused (.unimplementedRegisterWrite n)

/-- What remains when the effect of an injected instruction is known: the step completed its access. DESIGN CHOICE (log
40): the core is in Step mode after it (62 R688), also after an injected HALT. -/
def settleInjected (jump writes : Bool) (load : Option AbsReg) (kind : Option Bool) (s t : State) : Result :=
  let u := injectedCps writes s (injectedPc jump s t)
  .next { u with mode := .step, flight := none, dbg := { u.dbg with loadReg := load, lastAccess := kind } }

/-- Continuation on a next state. -/
def thenNext (r : Result) (k : State → Result) : Result :=
  match r with
  | .next t => k t
  | .fault f => .fault f
  | .refused x => .refused x

/-- The instruction in the IR executed in one step. -/
def runInjected (s : State) : Result :=
  match decode s.dbg.ir with
  | .instr i =>
    if injectable i && !clashes s.dbg.lastAccess (accessKind i) then
      thenNext (injectedEffect i s)
        fun t => settleInjected (isJump i) (writesCps i) (scanLoad i s) (accessKind i) s t
    else .refused (.injectedInstruction s.dbg.ir)
  | .emulation op rc ra rb =>
    thenNext (runTrapping op rc ra rb s.forced) fun t => settleInjected false false none none s t
  | .illegal _ => .refused (.trapWhileDisabled vIllegal)

/-! ### The CNTL field (62 R686-R690) -/

/-- A step ends what the ID bus held (62 R691). -/
def State.releaseIdBus (s : State) : State := { s with dbg := { s.dbg with scanOut := none } }

/-- One step of the Step mode, in which the machine remains with its access completed (62 R688) unless the step entered
the Halt mode; a WARN ends it. -/
def debugStep (s : State) : Result :=
  if s.warnLatch then onNext samplePio (coreCycle s)
  else if s.dbg.irValid then onNext samplePio (thenNext (completeScan (advanceTimer s)) runInjected)
  else onNext (fun t => ((samplePio t).launch none).releaseIdBus) (coreCycle s)

/-- Whether Load Test Instruction mode may be entered (62 R690). -/
def canLoadTest (s : State) : Bool := s.mode == .halt || s.mode == .step || s.mode == .loadTest

/-- The status of Load Test Instruction mode takes effect: with FZ forced PC0-PC2 freeze at values the pipeline gave
them (62 R690). -/
def forceStatus (s : State) : State :=
  if s.dbg.forced then s else { s.floatPcs.reserve with dbg := { s.dbg with forced := true } }

/-- Normal operation is resumed from Halt mode. DESIGN CHOICE (log 40): an OPT = 110 load that no step followed gets its
datum now; and the end of a forced FZ = 1 opens no window of 70 R724, which speaks of a write of CPS. -/
def resumeNormal (v : BitVec 2) (s : State) : Result :=
  onNext (fun t => { t with mode := .executing, dbg := { t.dbg.quiet with cntl := v } }) (completeScan s)

/-- The mode after CNTL changed by one bit to `v` from `old`; `old` = 01 to 11 steps. An access in progress is completed
first (62 R687, R688). -/
def cntlEffect (old v : BitVec 2) (s : State) : Result :=
  if v = 0 then
    if canLoadTest s then
      let t := forceStatus s
      .next { t with mode := .loadTest, dbg := { t.dbg with cntl := v, ir := s.dbg.scanIn } }
    else .refused (.cntlTransition v)
  else if v = 2 then
    .next { s with mode := .halt, flight := none, dbg := { s.dbg with cntl := v, irValid := false } }
  else if v = 1 then
    .next { s with
      mode := .step
      flight := none
      dbg := { s.dbg with cntl := v, irValid := decide (s.mode = .loadTest) || s.dbg.irValid } }
  else if old = 2 then resumeNormal v s
  else
    let t := { s with dbg := { s.dbg with cntl := v } }
    if s.mode = .step then debugStep t else .next t

/-- A change of CNTL; one of both bits is unpredictable (93 U34). -/
def cntlChange (v : BitVec 2) (s : State) : Result :=
  if v == s.dbg.cntl then .next s
  else if v ^^^ s.dbg.cntl = 3 then .refused (.cntlTransition v)
  else cntlEffect s.dbg.cntl v s

/-- The host changes CNTL through ICTEST1 or ICTEST2 (62 R684); during a multiple the change waits for its end (62 R689).
The Am29205 has no CNTL field. -/
def cntlMove (v : BitVec 2) (s : State) : Result :=
  if s.multiple.isSome then .next (deferCntl v s)
  else if drivesCntl s then (if s.dbg.pending.isEmpty then cntlChange v s else .next (queueCntl v s))
  else .next s

/-- The change of CNTL to v is a step of the core, which needs the bus. -/
def stepsCore (v : BitVec 2) (s : State) : Bool := v == 3 && s.mode == .step

/-- Changes of CNTL one after the other. They wait while a multiple waits for the bus, and a step among them waits while a
DMA channel has it (20 R131, 61 R617). -/
def cntlChanges : List (BitVec 2) → State → Result
  | [], s => .next s
  | v :: r, s =>
    if s.multiple.isSome || (stepsCore v s && busTaken s) then
      .next { s with dbg := { s.dbg with pending := s.dbg.pending ++ v :: r } }
    else thenNext (cntlChange v s) (cntlChanges r)

/-- Changes of CNTL that waited for a multiple to end, or after it for the bus, take effect in their order (62 R689). -/
def applyPending (s : State) : Result :=
  if s.multiple.isSome || s.dbg.pending.isEmpty then .next s
  else cntlChanges s.dbg.pending { s with dbg := { s.dbg with pending := [] } }

end Sys2Proof.Machine
end

