-- ==== Sys2Proof/Machine/Step.lean ====
section
/-! DEFINITION. The step of the machine: the next event of the schedule, or the core alone (60 R466, 20 R130). -/

namespace Sys2Proof.Machine

/-- A core step, and the changes of CNTL that waited for its end. -/
def coreTurn (s : State) : Result := thenNext (coreStep s) applyPending

/-- The WARN input becomes active where that is an edge (60 R484). -/
def State.warnEdge (s : State) : Bool := s.variant == .am29200 && !s.pins.warn

/-- The edge recognised at the end of the step in which it fell. DESIGN CHOICE (log 39): where a RESET falls between the
transfers of a multiple in the same step, the edge counts as later, and WARN is taken before the instruction at 0. -/
def latchWarn (s : State) : State :=
  { s with warnSoon := false, warnLatch := true, pins := { s.pins with warn := true } }

/-- A core step within which WARN becomes active: a trap of priority 2 or 3 at its end is lost (60 R468 item 4). -/
def warnTurn (s : State) : Result :=
  if s.warnEdge then onNext latchWarn (coreTurn { s with warnSoon := true }) else coreTurn s

/-- One event of the schedule. -/
def runEvent (e : Event) (s : State) : Result :=
  match e with
  | .core => coreTurn s
  | .warn => warnTurn s
  | .agent m => runMove m s
  | .mid m => runMove m s
  | .gap => .next s
  | .reset | .midReset => .next (resetPin s)
  | .cntl v | .midCntl v => thenNext (cntlMove v s) applyPending

/-- Events that use the bus at a lower priority than DMA (20 R131). -/
def needsBus (s : State) : Event → Bool
  | .core | .warn => true
  | .agent m | .mid m => m.needsBus
  | .cntl v | .midCntl v => stepsCore v s && s.multiple.isNone
  | _ => false

/-- One step: the first event of the schedule; with none left the core steps on (log 8). A DMA channel with a request
goes before an event that uses the bus, which stays in the schedule (20 R131, 61 R617). -/
def step (s : State) : Host.Outcome State Fault Refusal :=
  match s.schedule with
  | [] => if busTaken s then dmaMove s else coreTurn s
  | e :: r => if needsBus s e && busTaken s then dmaMove s else runEvent e { s with schedule := r }

/-- The state with an instruction stored where the next core step fetches (log 6). -/
def State.withFetchWord (s : State) (nbits w : Nat) : State := placeWord s s.pc (tableWord nbits w)

end Sys2Proof.Machine
end

