-- ==== Sys2Proof/Safety.lean ====
section
/-! DEFINITION. The terms in which claims about the machine are stated: registers by absolute number, what an
instruction leaves unchanged, how it completes or traps, when its operands are ready, and the invariants of a step. -/

namespace Sys2Proof.Machine

/-! ### Registers -/

/-- A register by absolute number. -/
def regAt (s : State) (n : AbsReg) : Word := readReg 0 n s

/-- No register changed. -/
structure SameRegisters (s t : State) : Prop where
  regs : ∀ n, hasStorage n = true → regAt t n = regAt s n
  shadow : t.shadow = s.shadow

/-- Register c took v and no other register changed. -/
structure OneRegister (aluClass : Bool) (c : AbsReg) (v : Word) (s t : State) : Prop where
  value : regAt t c = v
  others : ∀ n, hasStorage n = true → n ≠ c → regAt t n = regAt s n
  shadow : t.shadow = shadowAfter aluClass c v s

/-! ### Everything else -/

/-- Every byte of memory reads as before. -/
def SameMemory (s t : State) : Prop := ∀ a, Memory.get t.mem a = Memory.get s.mem a

/-- Every byte of memory outside [k, k + n) reads as before. -/
def SameMemoryOutside (k n : Nat) (s t : State) : Prop :=
  ∀ a, (a < k ∨ k + n ≤ a) → Memory.get t.mem a = Memory.get s.mem a

/-- The registers an exception saves into (10 R33, R45). -/
structure SameSaved (s t : State) : Prop where
  ops : t.ops = s.ops
  pc0 : t.pc0 = s.pc0
  pc1 : t.pc1 = s.pc1
  pc2 : t.pc2 = s.pc2

/-- The channel registers (10 R39-R41). -/
structure SameChannel (s t : State) : Prop where
  cha : t.cha = s.cha
  chd : t.chd = s.chd
  chc : t.chc = s.chc

/-- VAB, RBP and the timer (10 R32, R42-R44). -/
structure SameControl (s t : State) : Prop where
  vab : t.vab = s.vab
  rbp : t.rbp = s.rbp
  tmc : t.tmc = s.tmc
  tmr : t.tmr = s.tmr

/-- The indirect pointers (10 R46). -/
structure SamePointers (s t : State) : Prop where
  ipa : t.ipa = s.ipa
  ipb : t.ipb = s.ipb
  ipc : t.ipc = s.ipc

/-- The units outside the core, the pins and what left the chip. -/
structure SameDevices (s t : State) : Prop where
  variant : t.variant = s.variant
  strap : t.strap = s.strap
  mode : t.mode = s.mode
  warnLatch : t.warnLatch = s.warnLatch
  warnSoon : t.warnSoon = s.warnSoon
  multiple : t.multiple = s.multiple
  dbg : t.dbg = s.dbg
  romWritable : t.romWritable = s.romWritable
  rom : t.rmct = s.rmct ∧ t.rmcf = s.rmcf
  dram : t.drct = s.drct ∧ t.drcf = s.drcf
  mapping : t.drm0 = s.drm0 ∧ t.drm1 = s.drm1 ∧ t.drm2 = s.drm2 ∧ t.drm3 = s.drm3
  pia : t.pict0 = s.pict0 ∧ t.pict1 = s.pict1
  ict : t.ict = s.ict
  dma : t.dma0 = s.dma0 ∧ t.dma1 = s.dma1 ∧ t.tailAddr = s.tailAddr ∧ t.tailCount = s.tailCount
  pio : t.poct = s.poct ∧ t.pout = s.pout ∧ t.poen = s.poen
  pioSampled : t.pioSeen = s.pioSeen ∧ t.pioAge = s.pioAge
  ports : t.serial = s.serial ∧ t.pport = s.pport ∧ t.video = s.video
  pins : t.pins = s.pins
  schedule : t.schedule = s.schedule
  outbox : t.outbox = s.outbox

/-- What an instruction that only computes leaves alone: memory, every special register but CPS, ALU Status and Q, and
everything outside the core. -/
structure Undisturbed (s t : State) : Prop where
  memory : SameMemory s t
  saved : SameSaved s t
  channel : SameChannel s t
  control : SameControl s t
  pointers : SamePointers s t
  devices : SameDevices s t

/-! ### Completion and traps -/

/-- Control goes on at npc with `next` after it, and TP takes TE (10 R28, 60 R478). -/
structure ContinuesTo (next : Word) (s t : State) : Prop where
  pc : t.pc = s.npc
  npc : t.npc = next
  cps : t.cps = traceCopy s.cps

/-- Completion without a branch. -/
def Advances (s t : State) : Prop := ContinuesTo (s.npc + 4) s t

/-- The trap entry of vector vn with the point `p0 p1 p2` for PC0-PC2 and the status `cps` at its start
(60 R469-R471): the handler's address is the word in the vector table, OPS holds the status with IP computed, PC0-PC2
take the point unless frozen, and CPS takes the value of D2 (log 5). -/
structure Trapped (vn : VecNum) (p0 p1 p2 cps : Word) (s t : State) : Prop where
  handler : ∃ e, vectorFetch s vn = some e ∧ t.pc = wordAligned e ∧ t.npc = wordAligned e + 4
  pc0 : t.pc0 = if s.fz then s.pc0 else p0
  pc1 : t.pc1 = if s.fz then s.pc1 else p1
  pc2 : t.pc2 = if s.fz then s.pc2 else p2
  ops : t.ops = putBit cps 14 (ipBit s)
  cps : t.cps = trapCps cps

/-- A Curr-kind trap or an asynchronous event: the instruction at pc has not executed. -/
def TrapsBefore (vn : VecNum) (s t : State) : Prop := Trapped vn s.npc s.pc s.prevPc s.cps s t

/-- A Next-kind trap: the instruction at pc has executed. -/
def TrapsAfter (vn : VecNum) (s t : State) : Prop := Trapped vn (s.npc + 4) s.npc s.pc (traceCopy s.cps) s t

/-- What trap entry itself leaves alone (60 R470). -/
structure TrapUndisturbed (s t : State) : Prop where
  memory : SameMemory s t
  channel : SameChannel s t
  control : SameControl s t
  devices : SameDevices s t

/-- A trap can be taken: it is enabled, no WARN comes at the same time, its vector can be fetched, and no FZ change is
settling (60 R468, R470, R472, 70 R724). -/
structure CanTrap (vn : VecNum) (s : State) : Prop where
  enabled : s.da = false
  noWarn : s.warnSoon = false
  settled : s.fzSettle = 0
  vector : (vectorFetch s vn).isSome = true

/-! ### Operands -/

/-- A register field that resolves to an open register with value x. -/
def ReadsReg (p : Pos) (f : RegNum) (slot : Nat) (s : State) (x : Word) : Prop :=
  ∃ n, resolve p f s = some n ∧ isProtected s n = false ∧ readReg slot n s = x

/-- SRCA is available with value x. -/
def ReadsA (ra : RegNum) (s : State) (x : Word) : Prop := ReadsReg .A ra 3 s x

/-- SRCB, a register or a constant, is available with value y. -/
def ReadsB (b : SrcB) (s : State) (y : Word) : Prop :=
  match b with
  | .reg rb => ReadsReg .B rb 4 s y
  | .imm i => y = zext i

/-- A register field resolves to an open register that has storage. -/
structure WritesReg (p : Pos) (f : RegNum) (s : State) (c : AbsReg) : Prop where
  number : resolve p f s = some c
  isOpen : isProtected s c = false
  storage : hasStorage c = true

/-- Destination c, SRCA = x, SRCB = y. -/
structure Ready (rc ra : RegNum) (b : SrcB) (s : State) (c : AbsReg) (x y : Word) : Prop where
  dest : WritesReg .C rc s c
  srcA : ReadsA ra s x
  srcB : ReadsB b s y

/-- Three register fields whose absolute numbers are c, a, b, none of them protected. -/
structure NumbersReady (rc ra rb : RegNum) (s : State) (c a b : AbsReg) : Prop where
  numC : resolve .C rc s = some c
  numA : resolve .A ra s = some a
  numB : resolve .B rb s = some b
  openC : isProtected s c = false
  openA : isProtected s a = false
  openB : isProtected s b = false

/-! ### Arithmetic as the integers give it (40 R201) -/

/-- Whether a mathematical result lies outside the signed words. -/
def outOfSigned (z : Int) : Bool := decide (z < -2 ^ 31 ∨ 2 ^ 31 ≤ z)

/-- x + y + k: the carry out is that of the unsigned sum, overflow that of the signed one. -/
def exactSum (x y : Word) (k : Bool) : AddResult where
  r := x + y + ofFlag k
  c := decide (2 ^ 32 ≤ x.toNat + y.toNat + k.toNat)
  v := outOfSigned (x.toInt + y.toInt + k.toNat)

/-- x - y - 1 + k: C is 1 when no borrow occurs. -/
def exactDiff (x y : Word) (k : Bool) : AddResult where
  r := x - y - 1 + ofFlag k
  c := decide (y.toNat + 1 ≤ x.toNat + k.toNat)
  v := outOfSigned (x.toInt - y.toInt - 1 + k.toNat)

/-- V, N, Z, C after an add whose written word is d, and the Divide Flag df; BP and FC as before, and all of ALU Status
while FZ = 1 (40 R201, 10 R55). -/
structure ArithFlags (a : AddResult) (d : Word) (df : Bool) (s t : State) : Prop where
  frozen : s.fz = true → t.alu = s.alu
  v : s.fz = false → t.vFlag = a.v
  n : s.fz = false → t.nFlag = bit a.r 31
  z : s.fz = false → t.zFlag = decide (d = 0)
  c : s.fz = false → t.cFlag = a.c
  df : s.fz = false → t.df = df
  bp : t.bp = s.bp
  fc : t.fc = s.fc

/-- ALU Status and Q as before. -/
structure SameStatus (s t : State) : Prop where
  alu : t.alu = s.alu
  q : t.q = s.q

/-- The flags as before, and BP set to 11 by an access with SB = 1 unless frozen (45 R331 step 3). -/
structure AccessStatus (sb : Bool) (s t : State) : Prop where
  bp : t.bp = if sb && !s.fz then 3 else s.bp
  fc : t.fc = s.fc
  flags : t.vFlag = s.vFlag ∧ t.nFlag = s.nFlag ∧ t.zFlag = s.zFlag ∧ t.cFlag = s.cFlag ∧ t.df = s.df
  q : t.q = s.q

/-- The channel registers of an access, unless frozen; `datum` where the rules give CHD (45 R332). -/
structure RecordsAccess (a chc : Word) (datum : Option Word) (s t : State) : Prop where
  frozen : s.fz = true → SameChannel s t
  cha : s.fz = false → t.cha = a
  chc : s.fz = false → t.chc = chc
  chd : s.fz = false → ∀ d, datum = some d → t.chd = d

/-- Everything an access of memory leaves alone besides memory and the channel registers. -/
structure AccessUndisturbed (s t : State) : Prop where
  saved : SameSaved s t
  control : SameControl s t
  pointers : SamePointers s t
  devices : SameDevices s t

/-! ### Data in memory (20 R101, R105) -/

/-- The datum of an aligned load at byte k: a byte or half-word extended by SB, or a word, the byte at the lowest
address first. -/
def memoryDatum (opt : BitVec 3) (sb : Bool) (m : List Host.Cell) (k : Nat) : Word :=
  let half : Half := Memory.get m k ++ Memory.get m (k + 1)
  if opt = 1 then (if sb then (Memory.get m k).signExtend 32 else (Memory.get m k).setWidth 32)
  else if opt = 2 then (if sb then half.signExtend 32 else half.setWidth 32)
  else wordOfBytes (Memory.get m k) (Memory.get m (k + 1)) (Memory.get m (k + 2)) (Memory.get m (k + 3))

/-- The low bytes of a word stored from byte k on, the most significant of them first. -/
def HoldsDatum (opt : BitVec 3) (m : List Host.Cell) (k : Nat) (v : Word) : Prop :=
  ∀ j, j < optBytes opt → Memory.get m (k + j) = byteOfWord v (4 - optBytes opt + j)

/-! ### Invariants -/

/-- Instruction addresses are multiples of 4 (10 R28, R45). -/
structure AlignedPcs (s : State) : Prop where
  pc : bits s.pc 0 2 = 0
  npc : bits s.npc 0 2 = 0
  prevPc : bits s.prevPc 0 2 = 0
  pc0 : bits s.pc0 0 2 = 0
  pc1 : bits s.pc1 0 2 = 0
  pc2 : bits s.pc2 0 2 = 0

/-- Reserved bits of the special registers read 0 (10 R32-R48). -/
structure ReservedZero (s : State) : Prop where
  vab : s.vab &&& 0x3FF = 0
  ops : s.ops &&& ~~~opsMask = 0
  cps : s.cps &&& ~~~cpsMask = 0
  chc : s.chc &&& ~~~chcMask = 0
  rbp : s.rbp &&& 0xFFFF0000 = 0
  tmc : s.tmc &&& 0xFF000000 = 0
  tmr : s.tmr &&& 0xF8000000 = 0
  ipa : s.ipa &&& ~~~0x3FC#32 = 0
  ipb : s.ipb &&& ~~~0x3FC#32 = 0
  ipc : s.ipc &&& ~~~0x3FC#32 = 0
  alu : s.alu &&& ~~~aluMask = 0

/-- A run of k steps that neither faults nor is refused. -/
def SafeRun (k : Nat) (s : State) : Prop := ∃ t, Sys2Proof.core.run k s = .next t

end Sys2Proof.Machine
end

