-- ==== Sys2Proof/Certificates/Slice0/Obligations.lean ====
section
/-! DEFINITION. The statements for the provers, from the numbered rules of spec/. A family's table pairs each of its
instructions with the result the rules give it, in terms of the integers where they do. -/

namespace Sys2Proof.Machine

/-! ### Families -/

/-- An instruction of the RRM format. -/
abbrev RRM := RegNum → RegNum → SrcB → Instr

/-- The unchecked adds and subtracts: result from SRCA, SRCB and the Carry bit (40 R203, R204, R209, R210, R215, R216). -/
def plainSums : List (RRM × (Word → Word → Bool → AddResult)) :=
  [ (.add, fun x y _ => exactSum x y false),
    (.addc, fun x y k => exactSum x y k),
    (.sub, fun x y _ => exactDiff x y true),
    (.subc, fun x y k => exactDiff x y k),
    (.subr, fun x y _ => exactDiff y x true),
    (.subrc, fun x y k => exactDiff y x k) ]

/-- The checked adds and subtracts, with the condition of their Out-of-Range trap (40 R202, R205-R208, R211-R214,
R217-R220). -/
def checkedSums : List (RRM × (Word → Word → Bool → AddResult) × (AddResult → Bool)) :=
  [ (.adds, fun x y _ => exactSum x y false, fun a => a.v),
    (.addu, fun x y _ => exactSum x y false, fun a => a.c),
    (.addcs, fun x y k => exactSum x y k, fun a => a.v),
    (.addcu, fun x y k => exactSum x y k, fun a => a.c),
    (.subs, fun x y _ => exactDiff x y true, fun a => a.v),
    (.subu, fun x y _ => exactDiff x y true, fun a => !a.c),
    (.subcs, fun x y k => exactDiff x y k, fun a => a.v),
    (.subcu, fun x y k => exactDiff x y k, fun a => !a.c),
    (.subrs, fun x y _ => exactDiff y x true, fun a => a.v),
    (.subru, fun x y _ => exactDiff y x true, fun a => !a.c),
    (.subrcs, fun x y k => exactDiff y x k, fun a => a.v),
    (.subrcu, fun x y k => exactDiff y x k, fun a => !a.c) ]

/-- The multiply steps: the add of SRCB and the multiplicand m that Q[0] selects, and the bit that fills the vacated
position (41 R231-R233). -/
def multiplySteps : List (RRM × (Word → Word → AddResult) × (AddResult → Bool)) :=
  [ (.mul, fun m y => exactSum m y false, fun a => bit a.r 31 != a.v),
    (.mull, fun m y => exactDiff y m true, fun a => bit a.r 31 != a.v),
    (.mulu, fun m y => exactSum m y false, fun a => a.c) ]

/-- The compares, with their relation on the operands as numbers (42 R261-R271). -/
def compares : List (RRM × (Word → Word → Bool)) :=
  [ (.cpeq, fun x y => decide (x = y)),
    (.cpneq, fun x y => decide (x ≠ y)),
    (.cplt, fun x y => decide (x.toInt < y.toInt)),
    (.cpltu, fun x y => decide (x.toNat < y.toNat)),
    (.cple, fun x y => decide (x.toInt ≤ y.toInt)),
    (.cpleu, fun x y => decide (x.toNat ≤ y.toNat)),
    (.cpgt, fun x y => decide (y.toInt < x.toInt)),
    (.cpgtu, fun x y => decide (y.toNat < x.toNat)),
    (.cpge, fun x y => decide (y.toInt ≤ x.toInt)),
    (.cpgeu, fun x y => decide (y.toNat ≤ x.toNat)),
    (.cpbyte, fun x y =>
      decide (∃ k : Fin 4, (x.extractLsb' (8 * k.val) 8 : BitVec 8) = y.extractLsb' (8 * k.val) 8)) ]

/-- The asserts, with the relation they assert (42 R276-R285). -/
def asserts : List ((VecNum → RegNum → SrcB → Instr) × (Word → Word → Bool)) :=
  [ (.aseq, fun x y => decide (x = y)),
    (.asneq, fun x y => decide (x ≠ y)),
    (.aslt, fun x y => decide (x.toInt < y.toInt)),
    (.asltu, fun x y => decide (x.toNat < y.toNat)),
    (.asle, fun x y => decide (x.toInt ≤ y.toInt)),
    (.asleu, fun x y => decide (x.toNat ≤ y.toNat)),
    (.asgt, fun x y => decide (y.toInt < x.toInt)),
    (.asgtu, fun x y => decide (y.toNat < x.toNat)),
    (.asge, fun x y => decide (y.toInt ≤ x.toInt)),
    (.asgeu, fun x y => decide (y.toNat ≤ x.toNat)) ]

/-- The logical instructions (43 R301-R307). -/
def logicals : List (RRM × (Word → Word → Word)) :=
  [ (.and, fun x y => x &&& y),
    (.andn, fun x y => x &&& ~~~y),
    (.nand, fun x y => ~~~(x &&& y)),
    (.nor, fun x y => ~~~(x ||| y)),
    (.or, fun x y => x ||| y),
    (.xnor, fun x y => ~~~(x ^^^ y)),
    (.xor, fun x y => x ^^^ y) ]

/-- The shifts by a count from SRCB: of the word as a natural number or, for SRA, as an integer (44 R317-R319). -/
def shifts : List (RRM × (Word → Word → Word)) :=
  [ (.sll, fun x y => BitVec.ofNat 32 (x.toNat * 2 ^ (y.toNat % 32))),
    (.srl, fun x y => BitVec.ofNat 32 (x.toNat / 2 ^ (y.toNat % 32))),
    (.sra, fun x y => BitVec.ofInt 32 (x.toInt / 2 ^ (y.toNat % 32))) ]

/-- Replaces byte k of a word, byte 0 the most significant (45 R352). -/
def withByte (x : Word) (k : Nat) (v : Byte) : Word :=
  wordOfBytes (if k = 0 then v else byteOfWord x 0) (if k = 1 then v else byteOfWord x 1)
    (if k = 2 then v else byteOfWord x 2) (if k = 3 then v else byteOfWord x 3)

/-- Half-word h of a word, h = 0 the upper one. -/
def halfOf (x : Word) (h : Bool) : Half := if h then x.extractLsb' 0 16 else x.extractLsb' 16 16

/-- The byte and half-word extracts and inserts, from SRCA, SRCB and the Byte Pointer (45 R342, R343, R345, R346). -/
def bytePieces : List (RRM × (Word → Word → BitVec 2 → Word)) :=
  [ (.exbyte, fun x y p => withByte y 3 (byteOfWord x p.toNat)),
    (.inbyte, fun x y p => withByte x p.toNat (byteOfWord y 3)),
    (.exhw, fun x y p => halfOf y false ++ halfOf x (p.getLsbD 1)),
    (.inhw, fun x y p => if p.getLsbD 1 then halfOf x false ++ halfOf y true else halfOf y true ++ halfOf x true) ]

/-- Instructions whose whole hardware effect is to set the indirect pointers and trap, with the vector (60 R462):
register formats. -/
def trappingRegs : List ((RegNum → RegNum → RegNum → Instr) × VecNum) :=
  [ (.multm, 30), (.multmu, 31), (.multiply, 32), (.divide, 33), (.multiplu, 34), (.dividu, 35),
    (.sqrt, 37), (.cls, 38), (.feq, 42), (.deq, 43), (.fgt, 44), (.dgt, 45), (.fge, 46), (.dge, 47),
    (.fadd, 48), (.dadd, 49), (.fsub, 50), (.dsub, 51), (.fmul, 52), (.dmul, 53), (.fdiv, 54), (.ddiv, 55),
    (.fdmul, 57) ]

/-- The same with CONVERT, whose control fields stand where RB would (47 R382, R400). -/
def trapping (i : Instr) (rc ra rb : RegNum) (vn : VecNum) : Prop :=
  (∃ p ∈ trappingRegs, i = p.1 rc ra rb ∧ vn = p.2) ∨
    (∃ ui rnd fd fs, i = .convert rc ra ui rnd fd fs ∧ rb = convertByte ui rnd fd fs ∧ vn = 36)

/-- Instructions that do nothing but check their privilege (45 R350, R351, 49 R444). -/
def isPrivilegedNop (i : Instr) : Prop :=
  i = .inv ∨ (∃ rc ra, i = .mftlb rc ra) ∨ ∃ ra rb, i = .mttlb ra rb

/-- Every instruction of the RRM format that writes a register. -/
def registerFormat : List RRM :=
  plainSums.map (·.1) ++ checkedSums.map (·.1) ++ multiplySteps.map (·.1) ++ [.div, .divl, .divrem] ++
    compares.map (·.1) ++ logicals.map (·.1) ++ shifts.map (·.1) ++ [.extract] ++ bytePieces.map (·.1)

/-- The field of "RB or I" where it names a register. -/
def sourceField : SrcB → List (Pos × RegNum)
  | .reg rb => [(.B, rb)]
  | .imm _ => []

/-- The fields of an instruction that name general-purpose registers (30 R163-R173, 40 to 49); MFTLB and MTTLB, which do
nothing but check their privilege, not counted. -/
def registerFields (i : Instr) : List (Pos × RegNum) :=
  match i with
  | .constn ra _ | .consth ra _ | .const ra _ | .jmpf _ ra _ | .call _ ra _ | .jmpt _ ra _ | .jmpfdec _ ra _ =>
    [(.A, ra)]
  | .mtsr _ rb | .jmpi rb => [(.B, rb)]
  | .mfsr rc _ => [(.C, rc)]
  | .loadl _ ra b | .load _ ra b | .loadset _ ra b | .loadm _ ra b | .storel _ ra b | .store _ ra b
  | .storem _ ra b => (.A, ra) :: sourceField b
  | .clz rc b | .div0 rc b => (.C, rc) :: sourceField b
  | .exhws rc ra | .sqrt rc ra _ | .cls rc ra _ | .convert rc ra _ _ _ _ => [(.C, rc), (.A, ra)]
  | .adds rc ra b | .addu rc ra b | .add rc ra b | .addcs rc ra b | .addcu rc ra b | .addc rc ra b
  | .subs rc ra b | .subu rc ra b | .sub rc ra b | .subcs rc ra b | .subcu rc ra b | .subc rc ra b
  | .subrs rc ra b | .subru rc ra b | .subr rc ra b | .subrcs rc ra b | .subrcu rc ra b | .subrc rc ra b
  | .cpbyte rc ra b | .cplt rc ra b | .cpltu rc ra b | .cple rc ra b | .cpleu rc ra b | .cpgt rc ra b
  | .cpgtu rc ra b | .cpge rc ra b | .cpgeu rc ra b | .cpeq rc ra b | .cpneq rc ra b
  | .mul rc ra b | .mull rc ra b | .mulu rc ra b | .div rc ra b | .divl rc ra b | .divrem rc ra b
  | .exbyte rc ra b | .inbyte rc ra b | .exhw rc ra b | .inhw rc ra b | .extract rc ra b
  | .sll rc ra b | .srl rc ra b | .sra rc ra b
  | .and rc ra b | .or rc ra b | .xor rc ra b | .xnor rc ra b | .nor rc ra b | .nand rc ra b | .andn rc ra b =>
    (.C, rc) :: (.A, ra) :: sourceField b
  | .aslt _ ra b | .asltu _ ra b | .asle _ ra b | .asleu _ ra b | .asgt _ ra b | .asgtu _ ra b | .asge _ ra b
  | .asgeu _ ra b | .aseq _ ra b | .asneq _ ra b => (.A, ra) :: sourceField b
  | .jmpfi ra rb | .calli ra rb | .jmpti ra rb | .emulate _ ra rb => [(.A, ra), (.B, rb)]
  | .setip rc ra rb | .multm rc ra rb | .multmu rc ra rb | .multiply rc ra rb | .divide rc ra rb
  | .multiplu rc ra rb | .dividu rc ra rb | .feq rc ra rb | .deq rc ra rb | .fgt rc ra rb | .dgt rc ra rb
  | .fge rc ra rb | .dge rc ra rb | .fadd rc ra rb | .dadd rc ra rb | .fsub rc ra rb | .dsub rc ra rb
  | .fmul rc ra rb | .dmul rc ra rb | .fdiv rc ra rb | .ddiv rc ra rb | .fdmul rc ra rb =>
    [(.C, rc), (.A, ra), (.B, rb)]
  | .mtsrim _ _ | .iret | .iretinv | .inv | .mftlb _ _ | .mttlb _ _ | .halt | .jmp _ _ => []

/-- The control field that CONVERT, SQRT and CLASS have where others have RB: treated as a register number, so it must
name one (D14). -/
def controlField : Instr → List (Pos × RegNum)
  | .convert _ _ ui rnd fd fs => [(.B, convertByte ui rnd fd fs)]
  | .sqrt _ _ ctl | .cls _ _ ctl => [(.B, ctl)]
  | _ => []

/-- Special registers that take a moved word under a mask and nothing else, with their contents (10 R32-R48). -/
def plainSpecials : List (SprNum × (State → Word) × Word) :=
  [ (0, State.vab, 0xFFFFFC00), (1, State.ops, 0x00027C9F), (4, State.cha, 0xFFFFFFFF), (5, State.chd, 0xFFFFFFFF),
    (6, State.chc, 0xFFFFE3FF), (7, State.rbp, 0x0000FFFF), (8, State.tmc, 0x00FFFFFF), (9, State.tmr, 0x07FFFFFF),
    (10, State.pc0, 0xFFFFFFFC), (11, State.pc1, 0xFFFFFFFC), (12, State.pc2, 0xFFFFFFFC),
    (128, State.ipc, 0x000003FC), (129, State.ipa, 0x000003FC), (130, State.ipb, 0x000003FC),
    (131, State.q, 0xFFFFFFFF), (132, State.alu, 0x00000FFF) ]

/-- MTSR or MTSRIM moves v to special register sa (45 R348, R349). -/
def movesTo (i : Instr) (sa : SprNum) (v : Word) (s : State) : Prop :=
  (∃ rb, i = .mtsr sa rb ∧ ReadsReg .B rb 4 s v) ∨ ∃ imm : BitVec 16, i = .mtsrim sa imm ∧ v = imm.setWidth 32

/-- The special registers an access in the current mode may name (10 R31). -/
abbrev mayAccess (s : State) (sa : SprNum) : Prop := sa.toNat < 160 ∧ (s.sm = true ∨ 128 ≤ sa.toNat)

/-- The target of a jump: an absolute or a relative word offset (30 R172). -/
def jumpTo (abs : Bool) (disp : BitVec 16) (pc : Word) : Word :=
  if abs then BitVec.ofNat 32 (4 * disp.toNat) else pc + BitVec.ofInt 32 (4 * disp.toInt)

/-- LOADs and STOREs of one datum: instruction, whether it loads, whether it is LOADSET (45 R333-R337). -/
def singleAccesses : List ((BitVec 8 → RegNum → SrcB → Instr) × Bool × Bool) :=
  [ (.load, true, false), (.loadl, true, false), (.loadset, true, true), (.store, false, false), (.storel, false, false) ]

/-- The register of the k-th transfer of a multiple: after 255 comes 128 (45 R339). -/
def multipleReg (n : AbsReg) : Nat → AbsReg
  | 0 => n
  | k + 1 => if (multipleReg n k).toNat = 255 then 128 else multipleReg n k + 1

/-- The address of the k-th transfer of a multiple. -/
def multipleAddr (a : Word) (k : Nat) : Word := a + BitVec.ofNat 32 (4 * k)

/-- A LOADM or STOREM of s.cr + 1 words can run to its end without an event: registers n.. open and present, addresses
a.. in 32-bit-readable memory at the physical addresses `phys`. -/
structure MultipleReady (cntl : BitVec 8) (ra : RegNum) (b : SrcB) (s : State) (n : AbsReg) (a : Word)
    (phys : Nat → Word) : Prop where
  word : cntlOpt cntl = 0
  unfrozen : s.fz = false
  apart : s.recent.multi = false
  byHand : s.chcMl = false
  alone : s.schedule = []
  noWarn : s.warnLatch = false
  noDma : busTaken s = false
  noEvent : asyncEvent s = none
  number : resolve .A ra s = some n
  address : ReadsB b s a
  aligned : bits a 0 2 = 0
  regs : ∀ k, k ≤ s.cr.toNat → hasStorage (multipleReg n k) = true ∧ isProtected s (multipleReg n k) = false
  memory : ∀ k, k ≤ s.cr.toNat → ∃ w, locate s (multipleAddr a k) = .dram (phys k) w

/-- A return finds an incomplete access that is needed, with the channel registers and PC0-PC2 frozen (49 R447, D3). -/
structure Restartable (s : State) : Prop where
  supervisor : s.sm = true
  frozen : s.fz = true
  settled : s.fzSettle = 0
  valid : s.cv = true
  needed : s.nn = false

/-- The access is a single one of an aligned datum. -/
structure RestartsSingle (s : State) : Prop where
  single : s.ml = false
  width : optDefined (bits s.chc 24 3) = true
  aligned : unaligned (bits s.chc 24 3) s.cha = false

/-- It stores to DRAM at the physical address p, clear of the instruction words that execute next (log 31). -/
structure RestartsStore (s : State) (p : Word) (w : Nat) : Prop where
  place : locate s s.cha = .dram p w
  clear : hitsWords s (restoreContext s).wordsAfterReturn p = false
  canonical : Memory.wf s.mem = true

/-- The access is a multiple whose s.cr + 1 remaining transfers can run to their end under the restored status without an
event: registers present, from the second one on open (49 R447), addresses in DRAM at the physical addresses `phys`. -/
structure ResumesMultiple (s : State) (phys : Nat → Word) : Prop where
  multi : s.ml = true
  unfrozen : bit s.ops 10 = false
  alone : s.schedule = []
  noWarn : s.warnLatch = false
  noDma : busTaken s = false
  noEvent : asyncEvent (restoreContext s) = none
  aligned : bits s.cha 0 2 = 0
  present : ∀ k, k ≤ s.cr.toNat → hasStorage (multipleReg (bits s.chc 2 8) k) = true
  isOpen : ∀ k, k ≤ s.cr.toNat → 0 < k →
    isProtected (restoreContext s) (multipleReg (bits s.chc 2 8) k) = false
  memory : ∀ k, k ≤ s.cr.toNat → ∃ w, locate s (multipleAddr s.cha k) = .dram (phys k) w

/-- CPS from OPS, control at PC1 and then PC0; status, saved registers and everything else but registers, memory and the
channel registers as before (49 R447). -/
structure Returned (s t : State) : Prop where
  pc : t.pc = s.pc1 &&& 0xFFFFFFFC
  npc : t.npc = s.pc0 &&& 0xFFFFFFFC
  cps : t.cps = s.ops &&& 0x00023C9F
  status : SameStatus s t
  undisturbed : AccessUndisturbed s t

/-- The same after a single access: the channel registers as before, but for CV, which is 0 unless the restored status is
frozen. -/
structure Restarted (s t : State) : Prop where
  returned : Returned s t
  cv : t.cv = bit s.ops 10
  others : t.chc ||| 1 = s.chc ||| 1
  cha : t.cha = s.cha
  chd : t.chd = s.chd

/-- The bytes of an access take those of a word as it is driven on the bus, lane by lane (20 R106). -/
def HoldsLanes (opt : BitVec 3) (m : List Host.Cell) (k : Nat) (v : Word) : Prop :=
  ∀ j, j < optBytes opt → Memory.get m (k + j) = byteOfWord v ((k + j) % 4)

/-- Nothing but the core acts in the next step: nothing is scheduled, no DMA channel has a request, no change of CNTL
waits, and no multiple waits for the bus. -/
structure CoreAlone (s : State) : Prop where
  schedule : s.schedule = []
  noDma : busTaken s = false
  noCntl : s.dbg.pending = []
  noMultiple : s.multiple = none

/-- The core alone executes the instruction at pc: mode Executing, no WARN, no event, no Wait mode. -/
structure CoreExecutes (s : State) : Prop where
  alone : CoreAlone s
  mode : s.mode = .executing
  noWarn : s.warnLatch = false
  noEvent : asyncEvent s = none
  noWait : s.wm = false

/-- Peripheral registers that a store writes under a mask, with their addresses and the bits implemented on the
Am29200 (61 R546-R572, R602-R605, 62 R662). -/
def plainPeripherals : List (Word × (State → Word) × Word) :=
  [ (0x80000000, State.rmct, 0xFBE3E3E3), (0x80000004, State.rmcf, 0xFFFFFFFF), (0x80000008, State.drct, 0xDCCC81FF),
    (0x8000000C, State.drcf, 0xFFFFFFFF), (0x80000010, State.drm0, 0x80FF00FF), (0x80000014, State.drm1, 0x80FF00FF),
    (0x80000018, State.drm2, 0x80FF00FF), (0x8000001C, State.drm3, 0x80FF00FF), (0x80000020, State.pict0, 0x9F9F9F9F),
    (0x80000024, State.pict1, 0x9F9F0000), (0x80000034, fun s => s.dma0.addr, 0xFFFFFFFF),
    (0x80000038, fun s => s.dma0.cnt, 0x00FFFFFF), (0x80000044, fun s => s.dma1.addr, 0xFFFFFFFF),
    (0x80000048, fun s => s.dma1.cnt, 0x00FFFFFF), (0x800000D8, State.pout, 0x0000FFFF),
    (0x800000DC, State.poen, 0x0000FFFF), (0x800000E4, fun s => s.video.top, 0x00000FFF),
    (0x800000E8, fun s => s.video.side, 0x0FFFFFFF) ]

/-- The asynchronous events in the order of their priority, with their conditions (60 R466 step 2, R481). -/
def eventOrder : List (VecNum × (State → Bool)) :=
  [ (20, fun s => !s.da && trapRequest s 0), (21, fun s => !s.da && trapRequest s 1),
    (16, fun s => intrRequest s 0 && intrEnabled s 0), (17, fun s => intrRequest s 1 && intrEnabled s 1),
    (18, fun s => intrRequest s 2 && intrEnabled s 2), (19, fun s => intrRequest s 3 && intrEnabled s 3),
    (14, timerActive), (15, fun s => !s.da && s.tp) ]

end Sys2Proof.Machine

open Sys2Proof Sys2Proof.Machine

/-! ### Encoding -/

/-- Decoding what the encoder writes gives the instruction back, for every instruction and every field value (30
R160-R173, R180). -/
def Obligations.DecodeInvertsEncode : Prop :=
  ∀ i : Instr, decode (encode i) = .instr i

/-- A few words written out from the formats decode to the instructions they stand for (30 R164-R170, the examples of
40 R203, 44 R318, 45 R349, 48 R425, 49 R443). -/
def Obligations.ExampleWordsDecode : Prop :=
  decode 0x14606162 = .instr (.add 96 97 (.reg 98)) ∧
  decode 0x83606104 = .instr (.srl 96 97 (.imm 4)) ∧
  decode 0x04008608 = .instr (.mtsrim 134 8) ∧
  decode 0xA0FF00FE = .instr (.jmp false 0xFFFE) ∧
  decode 0xD7508386 = .instr (.emulate 0x50 131 134)

/-- Exactly the 49 operation codes of 30 R182 are illegal, whatever the rest of the word is. -/
def Obligations.IllegalCodesAreTheListed : Prop :=
  ∀ w : Word, (∃ op, decode w = .illegal op) ↔ opField w ∈
    [ 0x00#8, 0x05, 0x76, 0x77, 0x7F, 0x84, 0x85, 0x8A, 0x8B, 0x8D, 0x8E, 0x8F, 0xA2, 0xA3, 0xA6, 0xA7, 0xAA, 0xAB,
      0xAE, 0xAF, 0xB0, 0xB1, 0xB2, 0xB3, 0xB7, 0xB8, 0xB9, 0xBA, 0xBB, 0xBC, 0xBD, 0xBF, 0xC1, 0xC2, 0xC3, 0xC5,
      0xC7, 0xC9, 0xCA, 0xCB, 0xCD, 0xCF, 0xD0, 0xD1, 0xD2, 0xD3, 0xD4, 0xD5, 0xD6 ]

/-! ### Operands -/

/-- A local register number plus bits 8-2 of the Stack Pointer, truncated to seven bits, with the top bit kept at 1
(10 R23), where the shadow Stack Pointer is valid and the previous instruction did not write it. -/
def Obligations.LocalRegisterNumber : Prop :=
  ∀ (p : Pos) (f : RegNum) (s : State), 128 ≤ f.toNat → s.recent.sp = none → s.shadow.valid = true →
    ∃ n, resolve p f s = some n ∧
      n.toNat = 128 + (f.toNat % 128 + s.shadow.val.toNat / 4 % 128) % 128

/-- Register number 0 names what the position's indirect pointer holds, with no Stack Pointer addition, and every
other number below 128 names itself (10 R22, R24), where the previous instruction did not write the pointer. -/
def Obligations.GlobalRegisterNumber : Prop :=
  ∀ (p : Pos) (f : RegNum) (s : State), f.toNat < 128 → (f = 0 → p.oldPointer s = none) →
    ∃ n, resolve p f s = some n ∧
      n.toNat = if f = 0 then (p.pointer s).toNat / 4 % 256 else f.toNat

/-- One of the fields names a register whose bank is protected (10 R27). -/
def NamesProtected (l : List (Pos × RegNum)) (s : State) : Prop :=
  ∃ f ∈ l, ∃ n, resolve f.1 f.2 s = some n ∧ 2 ≤ n.toNat ∧ s.rbp.getLsbD (n.toNat / 16) = true

/-- In User mode an instruction that names a protected register traps to vector 5 before it acts, and nothing else changes
(10 R27, 45 R331, 60 R460, R476): BP too stays, also for a LOADM or STOREM with SB = 1 whose starting register is protected,
where the pseudocode of 45 R339 could be read otherwise (log 19). A Protection Violation is taken alone (D16). CPS at the
handler is D2 (log 5). -/
def Obligations.ProtectedOperandTraps : Prop :=
  ∀ i s, (∀ f ∈ registerFields i ++ controlField i, ∃ n, resolve f.1 f.2 s = some n) → s.sm = false →
    NamesProtected (registerFields i) s → CanTrap 5 s →
    ∃ t, exec i s = .next t ∧ TrapsBefore 5 s t ∧ SameRegisters s t ∧ SameStatus s t ∧ SamePointers s t ∧
      TrapUndisturbed s t

/-- The forms the RRM instructions stop on by name: a destination without storage (10 R26, 93 U1), and a local register in
any of their fields, destination or source, while the shadow Stack Pointer is invalid (10 R25, 93 U3). Both stops are the
treatments of 93 (logs 12, 13). -/
def Obligations.RegisterFormStops : Prop :=
  ∀ ins ∈ registerFormat, ∀ rc ra b s,
    (∀ c x y, resolve .C rc s = some c → isProtected s c = false → hasStorage c = false → ReadsA ra s x →
      ReadsB b s y → exec (ins rc ra b) s = .refused (.unimplementedRegisterWrite c)) ∧
    ((∃ f ∈ registerFields (ins rc ra b), 128 ≤ f.2.toNat) → s.recent.sp = none → s.shadow.valid = false →
      exec (ins rc ra b) s = .refused .localsUnpredictable)

/-! ### Integer arithmetic -/

/-- The adder is the exact sum and, on the complement of the second operand, the exact difference: carry and overflow
are those of the integers (40 R201). -/
def Obligations.AdderIsExact : Prop :=
  ∀ (x y : Word) (k : Bool), addCore x y k = exactSum x y k ∧ addCore x (~~~y) k = exactDiff x y k

/-- ADD, ADDC, SUB, SUBC, SUBR, SUBRC: the result in the destination, V N Z C, and nothing else (40 R200-R204, R209,
R210, R215, R216). -/
def Obligations.PlainSumResult : Prop :=
  ∀ p ∈ plainSums, ∀ rc ra b s c x y, Ready rc ra b s c x y →
    ∃ t, exec (p.1 rc ra b) s = .next t ∧ OneRegister true c (p.2 x y s.cFlag).r s t ∧
      ArithFlags (p.2 x y s.cFlag) (p.2 x y s.cFlag).r s.df s t ∧ t.q = s.q ∧ Advances s t ∧ Undisturbed s t

/-- The twelve checked adds and subtracts complete like the plain ones where their result is in range, or where DA = 1
(40 R202, R205-R208, R211-R214, R217-R220, 60 R472). -/
def Obligations.CheckedSumCompletes : Prop :=
  ∀ p ∈ checkedSums, ∀ rc ra b s c x y, Ready rc ra b s c x y →
    (p.2.2 (p.2.1 x y s.cFlag) = false ∨ s.da = true) →
    ∃ t, exec (p.1 rc ra b) s = .next t ∧ OneRegister true c (p.2.1 x y s.cFlag).r s t ∧
      ArithFlags (p.2.1 x y s.cFlag) (p.2.1 x y s.cFlag).r s.df s t ∧ t.q = s.q ∧ Advances s t ∧ Undisturbed s t

/-- Out of range with traps enabled, they write result and flags all the same and take the Out-of-Range trap with PC2
at the instruction (40 R202, 60 R469, R477). CPS at the handler is D2 (log 5). -/
def Obligations.CheckedSumTraps : Prop :=
  ∀ p ∈ checkedSums, ∀ rc ra b s c x y, Ready rc ra b s c x y →
    p.2.2 (p.2.1 x y s.cFlag) = true → CanTrap 2 s →
    ∃ t, exec (p.1 rc ra b) s = .next t ∧ OneRegister true c (p.2.1 x y s.cFlag).r s t ∧
      ArithFlags (p.2.1 x y s.cFlag) (p.2.1 x y s.cFlag).r s.df s t ∧ t.q = s.q ∧ TrapsAfter 2 s t ∧
      SamePointers s t ∧ TrapUndisturbed s t

/-- MUL, MULL, MULU: the sum with the multiplicand that Q[0] selects, appended by Q and shifted right one bit (41
R230-R233). -/
def Obligations.MultiplyStepResult : Prop :=
  ∀ p ∈ multiplySteps, ∀ rc ra b s c x y, Ready rc ra b s c x y →
    let a := p.2.1 (if bit s.q 0 then x else 0) y
    let d : Word := BitVec.ofBool (p.2.2 a) ++ a.r.extractLsb' 1 31
    ∃ t, exec (p.1 rc ra b) s = .next t ∧ OneRegister true c d s t ∧ ArithFlags a d s.df s t ∧
      t.q = (BitVec.ofBool (bit a.r 0) ++ s.q.extractLsb' 1 31 : Word) ∧ Advances s t ∧ Undisturbed s t

/-- DIV0: SRCB // Q shifted left one bit, DF set, N the sign of SRCB (41 R234; V = C = 0 is D15, log 43). -/
def Obligations.DivideInitializeResult : Prop :=
  ∀ rc b s c y, WritesReg .C rc s c → ReadsB b s y →
    let d : Word := y.extractLsb' 0 31 ++ BitVec.ofBool (bit s.q 31)
    ∃ t, exec (.div0 rc b) s = .next t ∧ OneRegister true c d s t ∧
      t.q = (s.q.extractLsb' 0 31 ++ 0#1 : Word) ∧ (s.fz = true → t.alu = s.alu) ∧
      (s.fz = false → t.df = true ∧ t.nFlag = bit y 31 ∧ t.zFlag = decide (d = 0) ∧ t.vFlag = false ∧
        t.cFlag = false) ∧
      t.bp = s.bp ∧ t.fc = s.fc ∧ Advances s t ∧ Undisturbed s t

/-- DIV and DIVL: add or subtract by DF, the new DF shifted into Q, and for DIV the remainder shifted with Q (41 R235,
R236). -/
def Obligations.DivideStepResult : Prop :=
  ∀ p ∈ [((Instr.div : RRM), true), (Instr.divl, false)], ∀ rc ra b s c x y, Ready rc ra b s c x y →
    let a := if s.df then exactDiff x y true else exactSum x y false
    let df := !((a.c != s.df) != s.nFlag)
    let d : Word := if p.2 then a.r.extractLsb' 0 31 ++ BitVec.ofBool (bit s.q 31) else a.r
    ∃ t, exec (p.1 rc ra b) s = .next t ∧ OneRegister true c d s t ∧ ArithFlags a d df s t ∧
      t.q = (s.q.extractLsb' 0 31 ++ BitVec.ofBool df : Word) ∧ Advances s t ∧ Undisturbed s t

/-- DIVREM: SRCA where DF = 1, else SRCA + SRCB (41 R237; the flags for DF = 1 are those of SRCA + 0, D15, log 43). -/
def Obligations.DivideRemainderResult : Prop :=
  ∀ rc ra b s c x y, Ready rc ra b s c x y →
    let a := exactSum x (if s.df then 0 else y) false
    ∃ t, exec (.divrem rc ra b) s = .next t ∧ OneRegister true c a.r s t ∧ ArithFlags a a.r s.df s t ∧ t.q = s.q ∧
      Advances s t ∧ Undisturbed s t

/-! ### Trapping arithmetic -/

/-- The trapping multiplies and divides and all floating-point instructions set IPC, IPA, IPB to the absolute numbers
of their operands and trap to operation code - 0xC0, Next kind (41 R240-R246, 47 R380-R402, 60 R462, R469); while DA =
1 they set the pointers and complete (D17, log 11). That CONVERT, SQRT and CLASS set IPB from their control byte as from
a register number, which with its first field 0 keeps the old pointer, is D14 (log 42). CPS at the handler is D2 (log
5). -/
def Obligations.TrappingInstructionTraps : Prop :=
  ∀ i rc ra rb vn s c a b, trapping i rc ra rb vn → NumbersReady rc ra rb s c a b →
    (CanTrap vn s → ∃ t, exec i s = .next t ∧ TrapsAfter vn s t ∧ t.ipc = c.setWidth 32 <<< 2 ∧
      t.ipa = a.setWidth 32 <<< 2 ∧ t.ipb = b.setWidth 32 <<< 2 ∧ SameRegisters s t ∧ SameStatus s t ∧
      TrapUndisturbed s t) ∧
    (s.da = true → ∃ t, exec i s = .next t ∧ Advances s t ∧ t.ipc = c.setWidth 32 <<< 2 ∧
      t.ipa = a.setWidth 32 <<< 2 ∧ t.ipb = b.setWidth 32 <<< 2 ∧ SameRegisters s t ∧ SameStatus s t ∧
      SameSaved s t ∧ TrapUndisturbed s t)

/-! ### Compares and asserts -/

/-- The compares put TRUE or FALSE, bit 31, into the destination and change no flag (42 R260-R271). -/
def Obligations.CompareResult : Prop :=
  ∀ p ∈ compares, ∀ rc ra b s c x y, Ready rc ra b s c x y →
    ∃ t, exec (p.1 rc ra b) s = .next t ∧ OneRegister false c (if p.2 x y then 0x80000000 else 0) s t ∧
      SameStatus s t ∧ Advances s t ∧ Undisturbed s t

/-- An assert whose relation holds, or any assert while DA = 1, changes nothing (42 R275-R285, 60 R472). -/
def Obligations.AssertHoldsChangesNothing : Prop :=
  ∀ p ∈ asserts, ∀ vn ra b s x y, ReadsA ra s x → ReadsB b s y → (p.2 x y = true ∨ s.da = true) →
    ∃ t, exec (p.1 vn ra b) s = .next t ∧ SameRegisters s t ∧ SameStatus s t ∧ Advances s t ∧ Undisturbed s t

/-- A failing assert traps to its vector, Next kind; in User mode with a vector below 64 it is a Protection Violation,
Curr kind (42 R275, 60 R460, R469, R473). CPS at the handler is D2 (log 5). -/
def Obligations.AssertFailsTraps : Prop :=
  ∀ p ∈ asserts, ∀ vn ra b s x y, ReadsA ra s x → ReadsB b s y → p.2 x y = false →
    let reserved := s.sm = false ∧ vn.toNat < 64
    (¬reserved → CanTrap vn s → ∃ t, exec (p.1 vn ra b) s = .next t ∧ TrapsAfter vn s t ∧ SameRegisters s t ∧
      SameStatus s t ∧ SamePointers s t ∧ TrapUndisturbed s t) ∧
    (reserved → CanTrap 5 s → ∃ t, exec (p.1 vn ra b) s = .next t ∧ TrapsBefore 5 s t ∧ SameRegisters s t ∧
      SameStatus s t ∧ SamePointers s t ∧ TrapUndisturbed s t)

/-! ### Logical, shift, byte -/

/-- The logical instructions: the result, N and Z from it, V and C and the rest of ALU Status kept (43 R300-R307). -/
def Obligations.LogicalResult : Prop :=
  ∀ p ∈ logicals, ∀ rc ra b s c x y, Ready rc ra b s c x y →
    ∃ t, exec (p.1 rc ra b) s = .next t ∧ OneRegister true c (p.2 x y) s t ∧ (s.fz = true → t.alu = s.alu) ∧
      (s.fz = false → t.nFlag = bit (p.2 x y) 31 ∧ t.zFlag = decide (p.2 x y = 0)) ∧ t.vFlag = s.vFlag ∧
      t.cFlag = s.cFlag ∧ t.df = s.df ∧ t.bp = s.bp ∧ t.fc = s.fc ∧ t.q = s.q ∧ Advances s t ∧ Undisturbed s t

/-- SLL, SRL, SRA by bits 4-0 of SRCB (44 R316-R319); EXTRACT: the word at bit position FC of SRCA // SRCB (44 R320). -/
def Obligations.ShiftResult : Prop :=
  ∀ rc ra b s c x y, Ready rc ra b s c x y →
    (∀ p ∈ shifts, ∃ t, exec (p.1 rc ra b) s = .next t ∧ OneRegister false c (p.2 x y) s t ∧ SameStatus s t ∧
      Advances s t ∧ Undisturbed s t) ∧
    (∃ t, exec (.extract rc ra b) s = .next t ∧
      OneRegister false c (if s.fc = 0 then x else x <<< s.fc.toNat ||| y >>> (32 - s.fc.toNat)) s t ∧
      SameStatus s t ∧ Advances s t ∧ Undisturbed s t)

/-- EXBYTE, INBYTE, EXHW, INHW with the byte or half-word that BP selects; EXHWS: the half-word of SRCA, sign-extended
(45 R342-R346). -/
def Obligations.BytePieceResult : Prop :=
  (∀ p ∈ bytePieces, ∀ rc ra b s c x y, Ready rc ra b s c x y →
    ∃ t, exec (p.1 rc ra b) s = .next t ∧ OneRegister false c (p.2 x y s.bp) s t ∧ SameStatus s t ∧ Advances s t ∧
      Undisturbed s t) ∧
  (∀ rc ra s c x, WritesReg .C rc s c → ReadsA ra s x →
    ∃ t, exec (.exhws rc ra) s = .next t ∧ OneRegister false c ((halfOf x (s.bp.getLsbD 1)).signExtend 32) s t ∧
      SameStatus s t ∧ Advances s t ∧ Undisturbed s t)

/-- CLZ: the number of zero bits above the first one bit, 32 for zero (49 R441). -/
def Obligations.CountLeadingZerosResult : Prop :=
  ∀ rc b s c y, WritesReg .C rc s c → ReadsB b s y →
    ∃ t k, exec (.clz rc b) s = .next t ∧ k ≤ 32 ∧ y.toNat < 2 ^ (32 - k) ∧ (k < 32 → 2 ^ (31 - k) ≤ y.toNat) ∧
      OneRegister false c (BitVec.ofNat 32 k) s t ∧ SameStatus s t ∧ Advances s t ∧ Undisturbed s t

/-- CONST, CONSTN and CONSTH on the register RA names (46 R371-R373). -/
def Obligations.ConstantResult : Prop :=
  ∀ ra (imm : BitVec 16) s n x, WritesReg .A ra s n → ReadsA ra s x →
    ∀ p ∈ [(Instr.const ra imm, (0#16 ++ imm : Word)), (.constn ra imm, 0xFFFF#16 ++ imm),
        (.consth ra imm, imm ++ x.extractLsb' 0 16)],
      ∃ t, exec p.1 s = .next t ∧ OneRegister false n p.2 s t ∧ SameStatus s t ∧ Advances s t ∧ Undisturbed s t

/-! ### Memory -/

/-- LOAD and LOADL of a byte, half-word or word at an aligned ROM or DRAM address: the datum that memory holds at its
physical address, and the record in the channel registers (45 R331-R334, 20 R101-R108). -/
def Obligations.LoadFromMemoryResult : Prop :=
  ∀ ins ∈ [Instr.load, Instr.loadl], ∀ cntl ra b s n a p, WritesReg .A ra s n → ReadsB b s a → s.chcMl = false →
    optDefined (cntlOpt cntl) = true → unaligned (cntlOpt cntl) a = false → physical s a = some p →
    ∃ t, exec (ins cntl ra b) s = .next t ∧
      OneRegister false n (memoryDatum (cntlOpt cntl) (cntlSb cntl) s.mem p.toNat) s t ∧
      AccessStatus (cntlSb cntl) s t ∧ RecordsAccess a (chcWord cntl s.cr true false false n false) none s t ∧
      SameMemory s t ∧ Advances s t ∧ AccessUndisturbed s t

/-- STORE and STOREL of a byte, half-word or word at an aligned DRAM address: the bytes at the physical address p that
`locate` gives, no other byte, no register (45 R331, R332, R335, R336, 20 R106). A store into the next four words is
refused (log 31). -/
def Obligations.StoreToMemoryResult : Prop :=
  ∀ ins ∈ [Instr.store, Instr.storel], ∀ cntl ra b s n a v p w, resolve .A ra s = some n → isProtected s n = false →
    readReg 3 n s = v → ReadsB b s a → s.chcMl = false → optDefined (cntlOpt cntl) = true →
    unaligned (cntlOpt cntl) a = false → locate s a = .dram p w → hitsNextWords s p = false → Memory.wf s.mem = true →
    ∃ t, exec (ins cntl ra b) s = .next t ∧ HoldsDatum (cntlOpt cntl) t.mem p.toNat v ∧
      SameMemoryOutside p.toNat (optBytes (cntlOpt cntl)) s t ∧ SameRegisters s t ∧
      AccessStatus (cntlSb cntl) s t ∧
      RecordsAccess a (chcWord cntl s.cr false false false n false) (some (replicateData (cntlOpt cntl) v)) s t ∧
      Advances s t ∧ AccessUndisturbed s t

/-- LOADSET: the datum into the register, then all ones into the same bytes (45 R337, 20 R125, D21). -/
def Obligations.LoadAndSetResult : Prop :=
  ∀ cntl ra b s n a p w, WritesReg .A ra s n → ReadsB b s a → s.chcMl = false → optDefined (cntlOpt cntl) = true →
    unaligned (cntlOpt cntl) a = false → locate s a = .dram p w → hitsNextWords s p = false → Memory.wf s.mem = true →
    ∃ t, exec (.loadset cntl ra b) s = .next t ∧
      OneRegister false n (memoryDatum (cntlOpt cntl) (cntlSb cntl) s.mem p.toNat) s t ∧
      HoldsDatum (cntlOpt cntl) t.mem p.toNat 0xFFFFFFFF ∧
      SameMemoryOutside p.toNat (optBytes (cntlOpt cntl)) s t ∧ AccessStatus (cntlSb cntl) s t ∧
      RecordsAccess a (chcWord cntl s.cr true false true n false) none s t ∧ Advances s t ∧ AccessUndisturbed s t

/-- A load or store whose address has no mapping, or is unaligned with TU = 1, traps after it with its channel record
marked Contents Valid; nothing is transferred (45 R331, 20 R107, R119, 60 R465, R474, R477). That the alignment check
covers every region, peripherals, PIA and VDRAM too, is D8; CPS at the handler is D2 (log 5). BP is set all the same
(D20); the trap is precise (log 21). -/
def Obligations.AccessTrapsPrecisely : Prop :=
  ∀ p ∈ singleAccesses, ∀ cntl ra b s n a vn, resolve .A ra s = some n → isProtected s n = false → ReadsB b s a →
    s.chcMl = false → optDefined (cntlOpt cntl) = true →
    ((locate s a = .miss ∧ vn = if s.sm then 11 else 9) ∨
      (locate s a ≠ .miss ∧ s.tu = true ∧ unaligned (cntlOpt cntl) a = true ∧ vn = 1)) →
    CanTrap vn s →
    ∃ t, exec (p.1 cntl ra b) s = .next t ∧ TrapsAfter vn s t ∧ SameRegisters s t ∧ SameMemory s t ∧
      AccessStatus (cntlSb cntl) s t ∧ RecordsAccess a (chcWord cntl s.cr p.2.1 false p.2.2 n true) none s t ∧
      SameControl s t ∧ SamePointers s t ∧ SameDevices s t

/-- LOADM: CR + 1 registers from RA on take the words from SRCB on (45 R339, R340, 20 R124), where the sequence meets
no event, trap or other agent; a register the sequence wraps back to keeps the last word. -/
def Obligations.LoadMultipleResult : Prop :=
  ∀ cntl ra b s n a phys, MultipleReady cntl ra b s n a phys →
    ∃ t, exec (.loadm cntl ra b) s = .next t ∧
      (∀ k, k ≤ s.cr.toNat → (∀ j, k < j → j ≤ s.cr.toNat → multipleReg n j ≠ multipleReg n k) →
        regAt t (multipleReg n k) = Memory.word s.mem (phys k).toNat) ∧
      (∀ m, hasStorage m = true → (∀ k, k ≤ s.cr.toNat → multipleReg n k ≠ m) → regAt t m = regAt s m) ∧
      t.cv = false ∧ SameMemory s t ∧ AccessStatus (cntlSb cntl) s t ∧ Advances s t ∧ AccessUndisturbed s t

/-- STOREM: CR + 1 registers from RA on to the words from SRCB on, no other byte, no register (45 R339, R341, 20 R124), where no event, trap or other agent intervenes. -/
def Obligations.StoreMultipleResult : Prop :=
  ∀ cntl ra b s n a phys, MultipleReady cntl ra b s n a phys → Memory.wf s.mem = true →
    (∀ k, k ≤ s.cr.toNat → hitsNextWords s (phys k) = false) →
    ∃ t, exec (.storem cntl ra b) s = .next t ∧
      (∀ k, k ≤ s.cr.toNat → (∀ j, k < j → j ≤ s.cr.toNat → phys j ≠ phys k) →
        Memory.word t.mem (phys k).toNat = regAt s (multipleReg n k)) ∧
      (∀ x, (∀ k, k ≤ s.cr.toNat → x < (phys k).toNat ∨ (phys k).toNat + 4 ≤ x) →
        Memory.get t.mem x = Memory.get s.mem x) ∧
      SameRegisters s t ∧ t.cv = false ∧ AccessStatus (cntlSb cntl) s t ∧ Advances s t ∧ AccessUndisturbed s t

/-! ### Special registers -/

/-- MFSR of every implemented special register, the windows BP, FC and CR among them, and of an unimplemented one with
an open value (10 R30-R51, R31, 45 R347). PC0-PC2 and the channel registers read as stored while they are frozen, else
an open value too (93 U7, log 15), CR always (log 15); which requests set the IP bit of CPS is D7. -/
def Obligations.MoveFromSpecialResult : Prop :=
  ∀ rc sa s c, WritesReg .C rc s c → mayAccess s sa →
    ∃ t v, exec (.mfsr rc sa) s = .next t ∧ OneRegister false c v s t ∧
      (∀ p ∈ plainSpecials, sa = p.1 → (sa.toNat ∈ [4, 5, 6, 10, 11, 12] → s.fz = true ∧ s.fzSettle = 0) →
        v = p.2.1 s) ∧
      (sa = 2 → v = putBit s.cps 14 (ipBit s)) ∧ (sa = 3 → v = Config.prl ++ 0#24) ∧
      (sa = 133 → v = (bits s.alu 5 2).setWidth 32) ∧ (sa = 134 → v = (bits s.alu 0 5).setWidth 32) ∧
      (sa = 135 → v = (bits s.chc 16 8).setWidth 32) ∧
      SameStatus s t ∧ Advances s t ∧ Undisturbed s t

/-- MTSR and MTSRIM to a special register that only takes the moved word: its implemented bits, and no other special
register, no register, no memory; CR, register 135, writes the count field of CHC alone (10 R32-R48, R51, 45 R348,
R349). -/
def Obligations.MoveToSpecialResult : Prop :=
  (∀ p ∈ plainSpecials, ∀ i s v, movesTo i p.1 v s → mayAccess s p.1 →
    ∃ t, exec i s = .next t ∧ p.2.1 t = v &&& p.2.2 ∧ (∀ q ∈ plainSpecials, q.1 ≠ p.1 → q.2.1 t = q.2.1 s) ∧
      SameRegisters s t ∧ SameMemory s t ∧ SameDevices s t ∧ Advances s t) ∧
  (∀ i s v, movesTo i 135 v s →
    ∃ t, exec i s = .next t ∧ bits t.chc 16 8 = bits v 0 8 ∧ bits t.chc 0 16 = bits s.chc 0 16 ∧
      bits t.chc 24 8 = bits s.chc 24 8 ∧ (∀ q ∈ plainSpecials, q.1 ≠ 6 → q.2.1 t = q.2.1 s) ∧
      SameRegisters s t ∧ SameMemory s t ∧ SameDevices s t ∧ Advances s t)

/-- MTSR and MTSRIM to CPS take its implemented bits before TP takes TE; CFG and the unimplemented numbers change nothing
(10 R31, R34, R38, 45 R348, 60 R478). That the new TE is copied is D23 (log 17); that 13-127 in Supervisor mode have no
effect is the ruling of 93 U2 (log 18). -/
def Obligations.MoveToStatusResult : Prop :=
  ∀ i sa s v, movesTo i sa v s → mayAccess s sa → sa = 2 ∨ sa = 3 ∨ (13 ≤ sa.toNat ∧ sa.toNat < 128) ∨ 136 ≤ sa.toNat →
    ∃ t, exec i s = .next t ∧ t.cps = traceCopy (if sa = 2 then v &&& 0x00023C9F else s.cps) ∧
      (∀ q ∈ plainSpecials, (10 ≤ q.1.toNat ∧ q.1.toNat ≤ 12 → sa ≠ 2) → q.2.1 t = q.2.1 s) ∧
      SameRegisters s t ∧ SameMemory s t ∧ SameDevices s t ∧ t.pc = s.npc ∧ t.npc = s.npc + 4

/-- FC, register 134, unprotected: a window on ALU bits 4-0 (10 R50). -/
def Obligations.FunnelCountWindow : Prop :=
  ∀ s : State, mayAccess s 134 ∧
    (∀ rc c, WritesReg .C rc s c →
      ∃ t, exec (.mfsr rc 134) s = .next t ∧ regAt t c = (bits s.alu 0 5).setWidth 32) ∧
    (∀ i v, movesTo i 134 v s →
      ∃ t, exec i s = .next t ∧ bits t.alu 0 5 = bits v 0 5 ∧ bits t.alu 5 27 = bits s.alu 5 27 ∧
        (∀ q ∈ plainSpecials, q.1 ≠ 132 → q.2.1 t = q.2.1 s) ∧ SameRegisters s t ∧ SameMemory s t ∧
        SameDevices s t ∧ Advances s t)

/-- BP, register 133, unprotected: a window on ALU bits 6-5 (10 R49). -/
def Obligations.BytePointerWindow : Prop :=
  ∀ s : State, mayAccess s 133 ∧
    (∀ rc c, WritesReg .C rc s c →
      ∃ t, exec (.mfsr rc 133) s = .next t ∧ regAt t c = (bits s.alu 5 2).setWidth 32) ∧
    (∀ i v, movesTo i 133 v s →
      ∃ t, exec i s = .next t ∧ bits t.alu 5 2 = bits v 0 2 ∧ bits t.alu 0 5 = bits s.alu 0 5 ∧
        bits t.alu 7 25 = bits s.alu 7 25 ∧ (∀ q ∈ plainSpecials, q.1 ≠ 132 → q.2.1 t = q.2.1 s) ∧
        SameRegisters s t ∧ SameMemory s t ∧ SameDevices s t ∧ Advances s t)

/-- A special register an access may not name traps to vector 5 before the instruction acts (10 R31, 45 R347-R349, 60
R460, R476). CPS at the handler is D2 (log 5). -/
def Obligations.SpecialRegisterPrivilege : Prop :=
  ∀ sa s, ¬mayAccess s sa → CanTrap 5 s →
    ∀ i, (∃ rc, i = .mfsr rc sa) ∨ (∃ rb, i = .mtsr sa rb) ∨ (∃ imm, i = .mtsrim sa imm) →
      ∃ t, exec i s = .next t ∧ TrapsBefore 5 s t ∧ SameRegisters s t ∧ SameStatus s t ∧ SamePointers s t ∧
        TrapUndisturbed s t

/-- SETIP: the three indirect pointers take the absolute numbers of the operands (49 R442, 10 R46). -/
def Obligations.SetIndirectPointersResult : Prop :=
  ∀ rc ra rb s c a b, NumbersReady rc ra rb s c a b →
    ∃ t, exec (.setip rc ra rb) s = .next t ∧ t.ipc = c.setWidth 32 <<< 2 ∧ t.ipa = a.setWidth 32 <<< 2 ∧
      t.ipb = b.setWidth 32 <<< 2 ∧ SameRegisters s t ∧ SameStatus s t ∧ SameSaved s t ∧ Advances s t ∧
      TrapUndisturbed s t

/-- EMULATE: IPA and IPB take the absolute numbers of RA and RB, then the trap to its vector, Next kind; in User mode
with a vector below 64 a Protection Violation instead (49 R443, 60 R460), which leaves the pointers alone (D16); while
DA = 1 the pointers only (D17). CPS at the handler is D2 (log 5). -/
def Obligations.EmulateTraps : Prop :=
  ∀ vn ra rb s a b, resolve .A ra s = some a → resolve .B rb s = some b → isProtected s a = false →
    isProtected s b = false →
    let reserved := s.sm = false ∧ vn.toNat < 64
    (¬reserved → CanTrap vn s → ∃ t, exec (.emulate vn ra rb) s = .next t ∧ TrapsAfter vn s t ∧
      t.ipa = a.setWidth 32 <<< 2 ∧ t.ipb = b.setWidth 32 <<< 2 ∧ SameRegisters s t ∧ SameStatus s t ∧
      TrapUndisturbed s t) ∧
    (¬reserved → s.da = true → ∃ t, exec (.emulate vn ra rb) s = .next t ∧ Advances s t ∧
      t.ipa = a.setWidth 32 <<< 2 ∧ t.ipb = b.setWidth 32 <<< 2 ∧ SameRegisters s t ∧ SameStatus s t ∧
      SameSaved s t ∧ TrapUndisturbed s t) ∧
    (reserved → CanTrap 5 s → ∃ t, exec (.emulate vn ra rb) s = .next t ∧ TrapsBefore 5 s t ∧ SamePointers s t ∧
      SameRegisters s t ∧ SameStatus s t ∧ TrapUndisturbed s t)

/-! ### Branches -/

/-- JMP and JMPI: after the delay instruction control goes to the target, and nothing else changes; JMPT, JMPF, JMPTI
and JMPFI jump on bit 31 of SRCA (48 R420-R422, R425-R430, 30 R172). -/
def Obligations.JumpResult : Prop :=
  ∀ s : State,
    (∀ abs disp, ∃ t, exec (.jmp abs disp) s = .next t ∧ ContinuesTo (jumpTo abs disp s.pc) s t ∧
      SameRegisters s t ∧ SameStatus s t ∧ Undisturbed s t) ∧
    (∀ rb v, ReadsReg .B rb 4 s v → ∃ t, exec (.jmpi rb) s = .next t ∧ ContinuesTo (v &&& 0xFFFFFFFC) s t ∧
      SameRegisters s t ∧ SameStatus s t ∧ Undisturbed s t) ∧
    (∀ ra x, ReadsA ra s x →
      (∀ p ∈ [(Instr.jmpt, true), (Instr.jmpf, false)], ∀ abs disp, ∃ t, exec (p.1 abs ra disp) s = .next t ∧
        ContinuesTo (if bit x 31 = p.2 then jumpTo abs disp s.pc else s.npc + 4) s t ∧ SameRegisters s t ∧
        SameStatus s t ∧ Undisturbed s t) ∧
      (∀ p ∈ [(Instr.jmpti, true), (Instr.jmpfi, false)], ∀ rb v, ReadsReg .B rb 4 s v →
        ∃ t, exec (p.1 ra rb) s = .next t ∧
          ContinuesTo (if bit x 31 = p.2 then v &&& 0xFFFFFFFC else s.npc + 4) s t ∧ SameRegisters s t ∧
          SameStatus s t ∧ Undisturbed s t))

/-- CALL and CALLI: the address of the second following instruction into RA; RB is read before (48 R423, R424). -/
def Obligations.CallResult : Prop :=
  ∀ ra s n, WritesReg .A ra s n →
    (∀ abs disp, ∃ t, exec (.call abs ra disp) s = .next t ∧ OneRegister false n (s.pc + 8) s t ∧
      ContinuesTo (jumpTo abs disp s.pc) s t ∧ SameStatus s t ∧ Undisturbed s t) ∧
    (∀ rb v, ReadsReg .B rb 4 s v → ∃ t, exec (.calli ra rb) s = .next t ∧ OneRegister false n (s.pc + 8) s t ∧
      ContinuesTo (v &&& 0xFFFFFFFC) s t ∧ SameStatus s t ∧ Undisturbed s t)

/-- JMPFDEC: RA is decremented either way; the jump is taken if it was FALSE before (48 R431). -/
def Obligations.JumpDecrementResult : Prop :=
  ∀ abs ra disp s n x, WritesReg .A ra s n → ReadsA ra s x →
    ∃ t, exec (.jmpfdec abs ra disp) s = .next t ∧ OneRegister false n (x - 1) s t ∧
      ContinuesTo (if bit x 31 then s.npc + 4 else jumpTo abs disp s.pc) s t ∧ SameStatus s t ∧ Undisturbed s t

/-! ### System -/

/-- INV, MFTLB and MTTLB do nothing in Supervisor mode (45 R350, R351, 49 R444). -/
def Obligations.PrivilegedNopChangesNothing : Prop :=
  ∀ i s, isPrivilegedNop i → s.sm = true →
    ∃ t, exec i s = .next t ∧ SameRegisters s t ∧ SameStatus s t ∧ Advances s t ∧ Undisturbed s t

/-- In User mode INV, MFTLB, MTTLB, IRET, IRETINV and a HALT whose protection no debug host disabled trap to vector 5
before they act (60 R460, R476, 49 R444, R447-R449). CPS at the handler is D2 (log 5). -/
def Obligations.PrivilegedInUserTraps : Prop :=
  ∀ i s, isPrivilegedNop i ∨ i = .iret ∨ i = .iretinv ∨ (i = .halt ∧ s.dbg.haltUnprotected = false) →
    s.sm = false → CanTrap 5 s →
    ∃ t, exec i s = .next t ∧ TrapsBefore 5 s t ∧ SameRegisters s t ∧ SameStatus s t ∧ SamePointers s t ∧
      TrapUndisturbed s t

/-- IRET and IRETINV with no access to restart and no change of FZ settling: CPS from OPS, everything else kept, and with
FZ = 1 control at PC1 and then PC0; while FZ = 0 these are open word addresses (49 R445, R447, R448; 93 U7, log 15). -/
def Obligations.InterruptReturnResult : Prop :=
  ∀ i ∈ [Instr.iret, Instr.iretinv], ∀ s, s.sm = true → s.fzSettle = 0 → (s.cv = false ∨ s.nn = true) →
    ∃ t, exec i s = .next t ∧ t.cps = s.ops &&& 0x00023C9F ∧ bits t.pc 0 2 = 0 ∧ bits t.npc 0 2 = 0 ∧
      (s.fz = true → t.pc = s.pc1 &&& 0xFFFFFFFC ∧ t.npc = s.pc0 &&& 0xFFFFFFFC ∧ SameSaved s t) ∧
      t.ops = s.ops ∧ SameRegisters s t ∧ SameStatus s t ∧ SamePointers s t ∧ TrapUndisturbed s t

/-- IRET and IRETINV with an incomplete access (49 R447): a load is performed from CHA and CHC into the register TR names, a
LOADSET stores all ones after it (D21), a store drives the bytes of CHD, and CV becomes 0 unless the restored status is
frozen; an incomplete LOADM or STOREM makes its CR + 1 remaining transfers, the first store with CHD; control goes on at
PC1. That a single access is made in the step of the return is log 46, that a store into the next four words and a multiple
resumed with FZ = 1 are refused logs 31 and 19. -/
def Obligations.InterruptReturnRestartsAccess : Prop :=
  ∀ i ∈ [Instr.iret, Instr.iretinv], ∀ s, Restartable s →
    (∀ p, RestartsSingle s → bit s.chc 15 = true → bit s.chc 13 = false → physical s s.cha = some p →
      hasStorage (bits s.chc 2 8) = true →
      ∃ t, exec i s = .next t ∧ Restarted s t ∧ SameMemory s t ∧
        OneRegister false (bits s.chc 2 8) (memoryDatum (bits s.chc 24 3) (bit s.chc 28) s.mem p.toNat) s t) ∧
    (∀ p w, RestartsSingle s → bit s.chc 15 = true → bit s.chc 13 = true → RestartsStore s p w →
      hasStorage (bits s.chc 2 8) = true →
      ∃ t, exec i s = .next t ∧ Restarted s t ∧ HoldsDatum (bits s.chc 24 3) t.mem p.toNat 0xFFFFFFFF ∧
        SameMemoryOutside p.toNat (optBytes (bits s.chc 24 3)) s t ∧
        OneRegister false (bits s.chc 2 8) (memoryDatum (bits s.chc 24 3) (bit s.chc 28) s.mem p.toNat) s t) ∧
    (∀ p w, RestartsSingle s → bit s.chc 15 = false → RestartsStore s p w →
      ∃ t, exec i s = .next t ∧ Restarted s t ∧ HoldsLanes (bits s.chc 24 3) t.mem p.toNat s.chd ∧
        SameMemoryOutside p.toNat (optBytes (bits s.chc 24 3)) s t ∧ SameRegisters s t) ∧
    (∀ phys, ResumesMultiple s phys → bit s.chc 15 = true →
      ∃ t, exec i s = .next t ∧ Returned s t ∧ t.cv = false ∧ SameMemory s t ∧
        (∀ k, k ≤ s.cr.toNat →
          (∀ j, k < j → j ≤ s.cr.toNat → multipleReg (bits s.chc 2 8) j ≠ multipleReg (bits s.chc 2 8) k) →
          regAt t (multipleReg (bits s.chc 2 8) k) = Memory.word s.mem (phys k).toNat) ∧
        (∀ m, hasStorage m = true → (∀ k, k ≤ s.cr.toNat → multipleReg (bits s.chc 2 8) k ≠ m) →
          regAt t m = regAt s m)) ∧
    (∀ phys, ResumesMultiple s phys → bit s.chc 15 = false → Memory.wf s.mem = true →
      (∀ k, k ≤ s.cr.toNat → hitsWords s (restoreContext s).wordsAfterReturn (phys k) = false) →
      ∃ t, exec i s = .next t ∧ Returned s t ∧ t.cv = false ∧ SameRegisters s t ∧
        (∀ k, k ≤ s.cr.toNat → (∀ j, k < j → j ≤ s.cr.toNat → phys j ≠ phys k) →
          Memory.word t.mem (phys k).toNat = if k = 0 then s.chd else regAt s (multipleReg (bits s.chc 2 8) k)) ∧
        (∀ x, (∀ k, k ≤ s.cr.toNat → x < (phys k).toNat ∨ (phys k).toNat + 4 ≤ x) →
          Memory.get t.mem x = Memory.get s.mem x))

/-- HALT in Supervisor mode enters the Halt mode where no trap comes first, and a halted core does nothing until an
event of the schedule (49 R449, 60 R461). Which traps come first is log 45. -/
def Obligations.HaltEntersHaltMode : Prop :=
  ∀ s, (s.sm = true ∨ s.dbg.haltUnprotected = true) →
    (s.da = true ∨ trapBeforeHalt (finish s.enter) = false) →
    ∃ t, exec .halt s = .next t ∧ t.mode = .halt ∧ SameRegisters s t ∧ SameStatus s t ∧ Advances s t ∧
      SameMemory s t ∧ SameSaved s t ∧ SameChannel s t ∧ SameControl s t ∧ SamePointers s t ∧
      (CoreAlone s → s.warnLatch = false → step t = .next t)

/-! ### The step -/

/-- Where the four bytes at pc are an instruction i and the core executes it (no multiple waits for the bus, log 8), a
step is i's own effect on the state whose timer has counted the step's cycles, after which the access in flight is
followed and the I/O lines are sampled (60 R466, R486, 20 R104, R120, 61 R577). That the timer counts first is the
model's choice (log 9). -/
def Obligations.StepRunsInstruction : Prop :=
  ∀ s p i, s.schedule = [] → busTaken s = false → s.mode = .executing → s.warnLatch = false → asyncEvent s = none →
    s.multiple = none → s.wm = false → bits s.pc 0 2 = 0 → physical s s.pc = some p →
    decodeBytes (Memory.get s.mem p.toNat) (Memory.get s.mem (p.toNat + 1)) (Memory.get s.mem (p.toNat + 2))
      (Memory.get s.mem (p.toNat + 3)) = some i →
    step s = thenNext (onNext samplePio (onNext (trackFlight i (advanceTimer s)) (exec i (advanceTimer s)))) applyPending

/-- An enabled asynchronous event, the first in the order of the priorities, is taken before the instruction at pc (60
R466, R467, R469, R481). CPS at the handler is D2 (log 5). -/
def Obligations.AsyncEventTakenFirst : Prop :=
  ∀ s e, CoreAlone s → s.mode = .executing → s.warnLatch = false →
    eventOrder.find? (fun p => p.2 s) = some e → CanTrap e.1 s →
    ∃ t, step s = .next t ∧ TrapsBefore e.1 s t ∧ SameRegisters s t ∧ SameStatus s t ∧ SameMemory s t ∧
      SameChannel s t ∧ SamePointers s t

/-- A WARN comes before everything but the rest of a multiple, in every mode, whatever CPS disables: OPS takes CPS,
PC0-PC2 the interrupted point unless frozen, and execution begins at address 16 without a vector fetch; an access still
outstanding leaves CV = 1 and whether its datum is needed in CHC (60 R466, R474, R484, 70 R731). That PC0-PC2 count as
frozen under the status of Load Test Instruction mode is the model's reading (log 39) of the forced FZ = 1 of D4 (log
40). CPS at the handler is D2 (log 5); which access may still be outstanding is log 20. -/
def Obligations.WarnTaken : Prop :=
  ∀ s, CoreAlone s → s.warnLatch = true → s.fzSettle = 0 →
    ∃ t, step s = .next t ∧ t.pc = 16 ∧ t.npc = 20 ∧ t.mode = .executing ∧ t.warnLatch = false ∧
      t.ops = putBit s.cps 14 (ipBit s) ∧ t.cps = trapCps s.cps ∧
      t.pc0 = (if s.fz || s.dbg.forced then s.pc0 else s.npc) ∧ t.pc1 = (if s.fz || s.dbg.forced then s.pc1 else s.pc) ∧
      t.pc2 = (if s.fz || s.dbg.forced then s.pc2 else s.prevPc) ∧
      t.cha = s.cha ∧ t.chd = s.chd ∧
      (t.chc = s.chc ∨ s.fz = false ∧ ∃ f, s.flight = some f ∧ t.cv = true ∧ t.nn = !f.needed ∧ t.cr = s.cr) ∧
      (s.flight = none → t.chc = s.chc ∧ SameRegisters s t ∧ SameMemory s t) ∧ SameStatus s t ∧ SamePointers s t ∧
      t.vab = s.vab ∧ t.rbp = s.rbp

/-- In Wait mode a step executes nothing: the program counters and every register and byte of memory stay; only the
timer counts (60 R466, R489). -/
def Obligations.WaitModeIdles : Prop :=
  ∀ s, CoreAlone s → s.mode = .executing → s.warnLatch = false → asyncEvent s = none → s.wm = true →
    ∃ t, step s = .next t ∧ t.pc = s.pc ∧ t.npc = s.npc ∧ t.cps = s.cps ∧ SameRegisters s t ∧ SameStatus s t ∧
      SameMemory s t ∧ SameSaved s t ∧ SameChannel s t ∧ SamePointers s t ∧ t.vab = s.vab ∧ t.rbp = s.rbp ∧
      t.tmc = (advanceTimer s).tmc ∧ t.tmr = (advanceTimer s).tmr

/-- What comes at pc instead of an instruction: an illegal operation code traps to vector 0 and an instruction without a
mapping to vector 8 or 10, Curr kind; an operation code reserved for emulation sets the pointers and traps to operation
code - 0xC0, Next kind (30 R181, R182, 60 R465, R475). CPS at the handler is D2 (log 5). -/
def Obligations.IllegalCodeTraps : Prop :=
  ∀ s, CoreExecutes s →
    (∀ w op, fetch s s.pc = .word w → decode w = .illegal op → CanTrap 0 s →
      ∃ t, step s = .next t ∧ TrapsBefore 0 s t ∧ SameRegisters s t ∧ SameStatus s t ∧ SameMemory s t ∧
        SameChannel s t ∧ SamePointers s t) ∧
    (∀ vn, fetch s s.pc = .miss → vn = (if s.sm then 10 else 8) → CanTrap vn s →
      ∃ t, step s = .next t ∧ TrapsBefore vn s t ∧ SameRegisters s t ∧ SameStatus s t ∧ SameMemory s t ∧
        SameChannel s t ∧ SamePointers s t) ∧
    (∀ w op rc ra rb c a b, fetch s s.pc = .word w → decode w = .emulation op rc ra rb →
      NumbersReady rc ra rb s c a b → CanTrap (op - 0xC0) s →
      ∃ t, step s = .next t ∧ TrapsAfter (op - 0xC0) s t ∧ t.ipc = c.setWidth 32 <<< 2 ∧
        t.ipa = a.setWidth 32 <<< 2 ∧ t.ipb = b.setWidth 32 <<< 2 ∧ SameRegisters s t ∧ SameStatus s t ∧
        SameMemory s t ∧ SameChannel s t)

/-- The timer over n cycles: it counts down to zero without touching TMR, and the cycle after zero reloads it from TRV
and sets IN (60 R486, 10 R43, R44). -/
def Obligations.TimerCountsDown : Prop :=
  ∀ (tmc tmr : Word) (n : Nat), tmc.toNat < 2 ^ 24 →
    (n ≤ tmc.toNat → timerTicks n (tmc, tmr) = (tmc - BitVec.ofNat 32 n, tmr)) ∧
    (n = tmc.toNat + 1 → (timerTicks n (tmc, tmr)).1 = (bits tmr 0 24).setWidth 32 ∧
      bit (timerTicks n (tmc, tmr)).2 25 = true ∧
      bit (timerTicks n (tmc, tmr)).2 26 = (bit tmr 26 || bit tmr 25))

/-- A word store to ICT clears the bits written as 1 and keeps the others, but for I/O lines that are active in level
mode, which set theirs again (61 R560, R563, R575). -/
def Obligations.InterruptBitsClearByOnes : Prop :=
  ∀ ra b s n v, resolve .A ra s = some n → isProtected s n = false → readReg 3 n s = v → ReadsB b s 0x80000028 →
    s.chcMl = false →
    ∃ t, exec (.store 0 ra b) s = .next t ∧ t.ict = (s.ict &&& ~~~v) ||| pioLevelBits s ∧ SameRegisters s t ∧
      SameMemory s t ∧ Advances s t

/-- The plain peripheral registers of the Am29200: a word store puts its implemented bits into the register at that
address and no other one of them, a word load reads the register (20 R112, R113, 61 R546-R552, R556, R572, R573, R602,
R603, 62 R662). That a reserved code (of a DW, AMASK or timing field) is stored too is the model's choice: 93 U30 gives a
program that writes one no step, and the model refuses where the code would act (log 32). That DMADx and DMCNx take the
store while their channel is enabled is 93 U29 (log 38). -/
def Obligations.PeripheralRegisterResult : Prop :=
  ∀ r ∈ plainPeripherals, ∀ ra b s n, s.variant = .am29200 → s.chcMl = false → ReadsB b s r.1 →
    (∀ v, resolve .A ra s = some n → isProtected s n = false → readReg 3 n s = v →
      ∃ t, exec (.store 0 ra b) s = .next t ∧ r.2.1 t = v &&& r.2.2 ∧
        (∀ q ∈ plainPeripherals, q.1 ≠ r.1 → q.2.1 t = q.2.1 s) ∧ SameRegisters s t ∧ SameMemory s t ∧ Advances s t) ∧
    (WritesReg .A ra s n →
      ∃ t, exec (.load 0 ra b) s = .next t ∧ OneRegister false n (r.2.1 s) s t ∧
        (∀ q ∈ plainPeripherals, q.2.1 t = q.2.1 s) ∧ SameMemory s t ∧ Advances s t)

/-- What reset sets in the core: the program counter pair, CV, an invalid shadow Stack Pointer, Supervisor mode with
interrupts and traps disabled, and ROM bank 0 alone at address 0 (10 R58, 61 R545, 70 R701; CPS = 0x413 is D1, log 4).
-/
def Obligations.ResetSetsTheCore : Prop :=
  State.reset.pc = 0 ∧ State.reset.npc = 4 ∧ State.reset.cv = false ∧ State.reset.shadow.valid = false ∧
    State.reset.sm = true ∧ State.reset.da = true ∧ State.reset.cps = 0x413 ∧ State.reset.rmcf = 0x00FFFFFF ∧
    bits State.reset.drct 0 9 = 0x1FF ∧ State.reset.poen = 0 ∧ fetch State.reset 0 = .word 0

/-! ### Invariants -/

/-- Every step keeps memory in its canonical form (the model's own, 20 R102). -/
def Obligations.StepKeepsMemoryCanonical : Prop :=
  ∀ s t, Memory.wf s.mem = true → step s = .next t → Memory.wf t.mem = true

/-- Every step keeps the program counter pair and PC0-PC2 multiples of 4 (10 R28, R45). -/
def Obligations.StepKeepsPcsAligned : Prop :=
  ∀ s t, AlignedPcs s → step s = .next t → AlignedPcs t

/-- Every step keeps the reserved bits of the special registers zero (10 R32-R48). -/
def Obligations.StepKeepsReservedZero : Prop :=
  ∀ s t, ReservedZero s → step s = .next t → ReservedZero t

/-- The three invariants hold after reset. -/
def Obligations.ResetMeetsInvariants : Prop :=
  Memory.wf State.reset.mem = true ∧ AlignedPcs State.reset ∧ ReservedZero State.reset

/-- No instruction executed in User mode changes VAB, RBP or the timer registers, and one that ends in Supervisor mode
took a trap: DA and FZ are set and OPS holds the User mode (10 R31, 60 R460, R471), where no RESET and no wait of the
bus is scheduled to fall between the transfers of a multiple. -/
def Obligations.UserModeKeepsControl : Prop :=
  ∀ i s t, s.sm = false → (∀ e ∈ s.schedule, e ≠ .midReset ∧ e ≠ .mid .tick) → exec i s = .next t →
    SameControl s t ∧ (t.sm = true → t.da = true ∧ t.fz = true ∧ bit t.ops 4 = false)
end

