-- ==== Sys2Proof/Laws/Decode.lean ====
section
/-! SUPPORT. The fields of a packed word, and the opcode index as a list. -/

namespace Sys2Proof

/-- Bit i of a packed word, by the field it lies in. -/
theorem getLsbD_pack (o c a b : BitVec 8) (i : Nat) :
    (pack o c a b).getLsbD i =
      if i < 8 then b.getLsbD i
      else if i - 8 < 8 then a.getLsbD (i - 8)
      else if i - 8 - 8 < 8 then c.getLsbD (i - 8 - 8) else o.getLsbD (i - 8 - 8 - 8) := by
  show BitVec.getLsbD (w := 8 + 8 + 8 + 8) (o ++ c ++ a ++ b) i = _
  simp only [BitVec.getLsbD_append]

@[simp] theorem opField_pack (o c a b : BitVec 8) : opField (pack o c a b) = o := by
  apply BitVec.eq_of_getLsbD_eq
  intro i hi
  rw [opField, BitVec.getLsbD_extractLsb', getLsbD_pack, if_neg (by omega), if_neg (by omega), if_neg (by omega)]
  simp only [hi, decide_true, Bool.true_and]
  congr 1
  omega

@[simp] theorem fieldC_pack (o c a b : BitVec 8) : fieldC (pack o c a b) = c := by
  apply BitVec.eq_of_getLsbD_eq
  intro i hi
  rw [fieldC, BitVec.getLsbD_extractLsb', getLsbD_pack, if_neg (by omega), if_neg (by omega), if_pos (by omega)]
  simp only [hi, decide_true, Bool.true_and]
  congr 1
  omega

@[simp] theorem fieldA_pack (o c a b : BitVec 8) : fieldA (pack o c a b) = a := by
  apply BitVec.eq_of_getLsbD_eq
  intro i hi
  rw [fieldA, BitVec.getLsbD_extractLsb', getLsbD_pack, if_neg (by omega), if_pos (by omega)]
  simp only [hi, decide_true, Bool.true_and]
  congr 1
  omega

@[simp] theorem fieldB_pack (o c a b : BitVec 8) : fieldB (pack o c a b) = b := by
  apply BitVec.eq_of_getLsbD_eq
  intro i hi
  rw [fieldB, BitVec.getLsbD_extractLsb', getLsbD_pack, if_pos (by omega)]
  simp only [hi, decide_true, Bool.true_and, Nat.zero_add]

/-- The M or A bit is the low bit of the operation code. -/
@[simp] theorem mBit_pack (o c a b : BitVec 8) : mBit (pack o c a b) = o.getLsbD 0 := by
  rw [mBit, getLsbD_pack]
  rfl

theorem hi8_append_lo8 (v : BitVec 16) : hi8 v ++ lo8 v = v := by
  apply BitVec.eq_of_getLsbD_eq
  intro i hi
  show BitVec.getLsbD (w := 8 + 8) (hi8 v ++ lo8 v) i = _
  rw [BitVec.getLsbD_append]
  split
  · next h => simp [lo8, h]
  · have h1 : i - 8 < 8 := by omega
    have h2 : 8 + (i - 8) = i := by omega
    simp [hi8, h1, h2]

@[simp] theorem field16_pack (o a : BitVec 8) (v : BitVec 16) : field16 (pack o (hi8 v) a (lo8 v)) = v := by
  simp [field16, hi8_append_lo8]

/-- No two rows own the same operation code (30 R180). -/
theorem opRows_unambiguous :
    opRows.Pairwise fun r q => (if r.pair then r.code / 2 ≠ q.code / 2 else
      if q.pair then r.code / 2 ≠ q.code / 2 else r.code ≠ q.code) := by
  decide +kernel

/-- A word read back from its bytes. -/
@[simp] theorem wordOfBytes_byteOfWord (w : Word) :
    wordOfBytes (byteOfWord w 0) (byteOfWord w 1) (byteOfWord w 2) (byteOfWord w 3) = w := by
  apply BitVec.eq_of_getLsbD_eq
  intro i hi
  show (pack (byteOfWord w 0) (byteOfWord w 1) (byteOfWord w 2) (byteOfWord w 3)).getLsbD i = _
  rw [getLsbD_pack]
  simp only [byteOfWord, BitVec.getLsbD_extractLsb']
  split
  · next h => simp [h]
  · split
    · next h0 h =>
      have e : 8 + (i - 8) = i := by omega
      simp [h, e]
    · split
      · next h0 h1 h =>
        have e : 16 + (i - 8 - 8) = i := by omega
        simp [h, e]
      · have e : 24 + (i - 8 - 8 - 8) = i := by omega
        have h : i - 8 - 8 - 8 < 8 := by omega
        simp [h, e]

end Sys2Proof
end

