-- ==== Sys2Proof/Laws/Memory.lean ====
section
/-! SUPPORT. Memory as a canonical list: every store keeps the form, a byte reads as last stored, other bytes are left
alone. -/

namespace Sys2Proof.Machine

theorem Memory.above_mono {m : List Host.Cell} {lo hi : Nat} (h : Memory.above hi m = true) (hle : lo ≤ hi) :
    Memory.above lo m = true := by
  cases m with
  | nil => rfl
  | cons c m =>
    simp only [Memory.above, Bool.and_eq_true, decide_eq_true_eq] at h ⊢
    exact ⟨⟨Nat.le_trans hle h.1.1, h.1.2⟩, h.2⟩

theorem Memory.above_put {m : List Host.Cell} {lo a : Nat} {v : Byte} (h : Memory.above lo m = true)
    (ha : lo ≤ a) : Memory.above lo (Memory.put m a v) = true := by
  induction m generalizing lo with
  | nil =>
    unfold Memory.put
    split
    · rfl
    · next hv => simp [Memory.above, ha, hv]
  | cons c m ih =>
    obtain ⟨b, w⟩ := c
    have hc := h
    simp only [Memory.above, Bool.and_eq_true, decide_eq_true_eq] at hc
    unfold Memory.put
    split
    · next hab =>
      split
      · exact h
      · next hv =>
        simp only [Memory.above, Bool.and_eq_true, decide_eq_true_eq]
        exact ⟨⟨ha, by simp [hv]⟩, ⟨hab, hc.1.2⟩, hc.2⟩
    · split
      · next hab =>
        split
        · exact Memory.above_mono hc.2 (by omega)
        · next hv =>
          simp only [Memory.above, Bool.and_eq_true, decide_eq_true_eq]
          exact ⟨⟨hc.1.1, by simp [hv]⟩, hc.2⟩
      · next hlt hne =>
        simp only [Memory.above, Bool.and_eq_true, decide_eq_true_eq]
        exact ⟨hc.1, ih hc.2 (by omega)⟩

/-- A stored byte keeps the canonical form. -/
theorem Memory.wf_put {m : List Host.Cell} (h : Memory.wf m = true) (a : Nat) (v : Byte) :
    Memory.wf (Memory.put m a v) = true := Memory.above_put h (Nat.zero_le a)

/-- Stored bytes keep the canonical form. -/
theorem Memory.wf_putBytes {m : List Host.Cell} (h : Memory.wf m = true) (a : Nat) (vs : List Byte) :
    Memory.wf (Memory.putBytes m a vs) = true := by
  induction vs generalizing m a with
  | nil => exact h
  | cons v vs ih => exact ih (Memory.wf_put h a v) (a + 1)

/-- Below its bound a canonical list reads as unlisted. -/
theorem Memory.get_of_above {m : List Host.Cell} {lo a : Nat} (h : Memory.above lo m = true) (ha : a < lo) :
    Memory.get m a = unlistedByte := by
  induction m generalizing lo with
  | nil => rfl
  | cons c m ih =>
    obtain ⟨b, w⟩ := c
    simp only [Memory.above, Bool.and_eq_true, decide_eq_true_eq] at h
    have hne : a ≠ b := by omega
    simp only [Memory.get, hne, if_false]
    exact ih h.2 (by omega)

/-- Every other byte reads as before, in any list. -/
theorem Memory.get_put_ne (m : List Host.Cell) {a b : Nat} (v : Byte) (h : a ≠ b) :
    Memory.get (Memory.put m b v) a = Memory.get m a := by
  induction m with
  | nil => by_cases hv : v = unlistedByte <;> simp [Memory.put, Memory.get, hv, h]
  | cons c m ih =>
    obtain ⟨k, w⟩ := c
    unfold Memory.put
    split
    · split
      · rfl
      · simp [Memory.get, h]
    · split
      · next hbk =>
        subst hbk
        split <;> simp [Memory.get, h]
      · simp only [Memory.get, ih]

/-- A byte reads as last stored. -/
theorem Memory.get_put_same {m : List Host.Cell} (hm : Memory.wf m = true) (a : Nat) (v : Byte) :
    Memory.get (Memory.put m a v) a = v := by
  have key : ∀ (m : List Host.Cell) (lo : Nat), Memory.above lo m = true →
      Memory.get (Memory.put m a v) a = v := by
    intro m
    induction m with
    | nil =>
      intro lo _
      by_cases hv : v = unlistedByte <;> simp [Memory.put, Memory.get, hv]
    | cons c m ih =>
      intro lo h
      obtain ⟨b, w⟩ := c
      have hc := h
      simp only [Memory.above, Bool.and_eq_true, decide_eq_true_eq] at hc
      unfold Memory.put
      split
      · next hab =>
        split
        · next hv =>
          have hne : a ≠ b := by omega
          simp only [Memory.get, hne, if_false]
          rw [hv]
          exact Memory.get_of_above hc.2 (by omega)
        · simp [Memory.get]
      · split
        · next hab =>
          split
          · next hv =>
            rw [hv]
            exact Memory.get_of_above hc.2 (by omega)
          · simp [Memory.get, hab]
        · next hlt hne =>
          simp only [Memory.get, hne, if_false]
          exact ih _ hc.2
  exact key m 0 hm

/-- Bytes outside the stored range read as before. -/
theorem Memory.get_putBytes_outside (m : List Host.Cell) (k a : Nat) (vs : List Byte)
    (h : a < k ∨ k + vs.length ≤ a) : Memory.get (Memory.putBytes m k vs) a = Memory.get m a := by
  induction vs generalizing m k with
  | nil => rfl
  | cons v vs ih =>
    simp only [List.length_cons] at h
    have hne : a ≠ k := by omega
    simp only [Memory.putBytes]
    rw [ih (Memory.put m k v) (k + 1) (by omega)]
    exact Memory.get_put_ne m v hne

/-- The i-th stored byte reads back. -/
theorem Memory.get_putBytes_inside {m : List Host.Cell} (hm : Memory.wf m = true) (k : Nat) (vs : List Byte)
    (i : Nat) (h : i < vs.length) : Memory.get (Memory.putBytes m k vs) (k + i) = vs[i] := by
  induction vs generalizing m k i with
  | nil => simp at h
  | cons v vs ih =>
    simp only [Memory.putBytes]
    cases i with
    | zero =>
      rw [Nat.add_zero, Memory.get_putBytes_outside _ _ _ _ (by omega)]
      exact Memory.get_put_same hm k v
    | succ i =>
      have e : k + (i + 1) = (k + 1) + i := by omega
      rw [e]
      simpa using ih (Memory.wf_put hm k v) (k + 1) i (by simpa using h)

end Sys2Proof.Machine
end

