-- ==== Sys2Proof/Laws/Bits.lean ====
section
/-! SUPPORT. Single bits and fields of a word under putBit, and the flags of ALU Status and CPS under their updates. -/

namespace Sys2Proof.Machine

theorem getLsbD_one_shiftLeft (k j : Nat) (hk : k < 32) :
    ((1#32 <<< k).getLsbD j) = decide (j = k) := by
  rw [BitVec.getLsbD_shiftLeft]
  by_cases h : j = k
  · subst h; simp [hk]
  · by_cases hlt : j < k
    · simp [hlt, h]
    · have : j - k ≠ 0 := by omega
      simp [h, hlt, this]

theorem getLsbD_putBit (w : Word) (k j : Nat) (b : Bool) (hk : k < 32) :
    (putBit w k b).getLsbD j = if j = k then b else w.getLsbD j := by
  unfold putBit
  cases b
  · simp only [Bool.false_eq_true, if_false, BitVec.getLsbD_and, BitVec.getLsbD_not, getLsbD_one_shiftLeft k j hk]
    by_cases h : j = k
    · simp [h]
    · by_cases hj : j < 32
      · simp [h, hj]
      · have : w.getLsbD j = false := BitVec.getLsbD_of_ge w j (by omega)
        simp [this, h]
  · simp only [if_true, BitVec.getLsbD_or, getLsbD_one_shiftLeft k j hk]
    by_cases h : j = k <;> simp [h]

theorem bit_putBit_same (w : Word) (k : Nat) (b : Bool) (hk : k < 32) : bit (putBit w k b) k = b := by
  simp [bit, getLsbD_putBit w k k b hk]

theorem bit_putBit_ne (w : Word) (k j : Nat) (b : Bool) (hk : k < 32) (h : j ≠ k) :
    bit (putBit w k b) j = bit w j := by
  simp [bit, getLsbD_putBit w k j b hk, h]

/-- A field that does not contain the replaced bit. -/
theorem bits_putBit_outside (w : Word) (k lo n : Nat) (b : Bool) (hk : k < 32) (h : k < lo ∨ lo + n ≤ k) :
    bits (putBit w k b) lo n = bits w lo n := by
  apply BitVec.eq_of_getLsbD_eq
  intro i hi
  have : lo + i ≠ k := by omega
  simp [bits, BitVec.getLsbD_extractLsb', getLsbD_putBit w k (lo + i) b hk, this]

/-! ### ALU Status under the flag updates -/

theorem aluVNZC_v (w : Word) (v n z c : Bool) : bit (aluVNZC w v n z c) 10 = v := by
  simp [aluVNZC, bit_putBit_ne, bit_putBit_same]

theorem aluVNZC_n (w : Word) (v n z c : Bool) : bit (aluVNZC w v n z c) 9 = n := by
  simp [aluVNZC, bit_putBit_ne, bit_putBit_same]

theorem aluVNZC_z (w : Word) (v n z c : Bool) : bit (aluVNZC w v n z c) 8 = z := by
  simp [aluVNZC, bit_putBit_ne, bit_putBit_same]

theorem aluVNZC_c (w : Word) (v n z c : Bool) : bit (aluVNZC w v n z c) 7 = c := by
  simp [aluVNZC, bit_putBit_same]

theorem aluVNZC_df (w : Word) (v n z c : Bool) : bit (aluVNZC w v n z c) 11 = bit w 11 := by
  simp [aluVNZC, bit_putBit_ne]

theorem aluVNZC_bp (w : Word) (v n z c : Bool) : bits (aluVNZC w v n z c) 5 2 = bits w 5 2 := by
  simp [aluVNZC, bits_putBit_outside]

theorem aluVNZC_fc (w : Word) (v n z c : Bool) : bits (aluVNZC w v n z c) 0 5 = bits w 0 5 := by
  simp [aluVNZC, bits_putBit_outside]

/-! ### CPS under trace copy and trap entry -/

theorem bit_traceCopy_ne (w : Word) (j : Nat) (h : j ≠ 12) : bit (traceCopy w) j = bit w j :=
  bit_putBit_ne w 12 j _ (by decide) h

theorem bit_traceCopy_tp (w : Word) : bit (traceCopy w) 12 = bit w 13 := bit_putBit_same w 12 _ (by decide)

theorem bits_traceCopy_im (w : Word) : bits (traceCopy w) 2 2 = bits w 2 2 :=
  bits_putBit_outside w 12 2 2 _ (by decide) (by decide)

end Sys2Proof.Machine
end

