-- ==== Sys2Proof/Laws/State.lean ====
section
/-! SUPPORT. What every update of the state leaves and gives, field by field. -/

namespace Sys2Proof.Machine

variable (s : State)


/-! ### markMultiple -/

@[simp] theorem markMultiple_variant : s.markMultiple.variant = s.variant := rfl
@[simp] theorem markMultiple_strap : s.markMultiple.strap = s.strap := rfl
@[simp] theorem markMultiple_pc : s.markMultiple.pc = s.pc := rfl
@[simp] theorem markMultiple_npc : s.markMultiple.npc = s.npc := rfl
@[simp] theorem markMultiple_prevPc : s.markMultiple.prevPc = s.prevPc := rfl
@[simp] theorem markMultiple_gr1 : s.markMultiple.gr1 = s.gr1 := rfl
@[simp] theorem markMultiple_shadow : s.markMultiple.shadow = s.shadow := rfl
@[simp] theorem markMultiple_gr : s.markMultiple.gr = s.gr := rfl
@[simp] theorem markMultiple_lr : s.markMultiple.lr = s.lr := rfl
@[simp] theorem markMultiple_vab : s.markMultiple.vab = s.vab := rfl
@[simp] theorem markMultiple_ops : s.markMultiple.ops = s.ops := rfl
@[simp] theorem markMultiple_cps : s.markMultiple.cps = s.cps := rfl
@[simp] theorem markMultiple_cha : s.markMultiple.cha = s.cha := rfl
@[simp] theorem markMultiple_chd : s.markMultiple.chd = s.chd := rfl
@[simp] theorem markMultiple_chc : s.markMultiple.chc = s.chc := rfl
@[simp] theorem markMultiple_rbp : s.markMultiple.rbp = s.rbp := rfl
@[simp] theorem markMultiple_tmc : s.markMultiple.tmc = s.tmc := rfl
@[simp] theorem markMultiple_tmr : s.markMultiple.tmr = s.tmr := rfl
@[simp] theorem markMultiple_pc0 : s.markMultiple.pc0 = s.pc0 := rfl
@[simp] theorem markMultiple_pc1 : s.markMultiple.pc1 = s.pc1 := rfl
@[simp] theorem markMultiple_pc2 : s.markMultiple.pc2 = s.pc2 := rfl
@[simp] theorem markMultiple_ipa : s.markMultiple.ipa = s.ipa := rfl
@[simp] theorem markMultiple_ipb : s.markMultiple.ipb = s.ipb := rfl
@[simp] theorem markMultiple_ipc : s.markMultiple.ipc = s.ipc := rfl
@[simp] theorem markMultiple_q : s.markMultiple.q = s.q := rfl
@[simp] theorem markMultiple_alu : s.markMultiple.alu = s.alu := rfl
@[simp] theorem markMultiple_fzSettle : s.markMultiple.fzSettle = s.fzSettle := rfl
@[simp] theorem markMultiple_chcMl : s.markMultiple.chcMl = s.chcMl := rfl
@[simp] theorem markMultiple_mode : s.markMultiple.mode = s.mode := rfl
@[simp] theorem markMultiple_warnLatch : s.markMultiple.warnLatch = s.warnLatch := rfl
@[simp] theorem markMultiple_warnSoon : s.markMultiple.warnSoon = s.warnSoon := rfl
@[simp] theorem markMultiple_flight : s.markMultiple.flight = s.flight := rfl
@[simp] theorem markMultiple_multiple : s.markMultiple.multiple = s.multiple := rfl
@[simp] theorem markMultiple_dbg : s.markMultiple.dbg = s.dbg := rfl
@[simp] theorem markMultiple_mem : s.markMultiple.mem = s.mem := rfl
@[simp] theorem markMultiple_romWritable : s.markMultiple.romWritable = s.romWritable := rfl
@[simp] theorem markMultiple_rmct : s.markMultiple.rmct = s.rmct := rfl
@[simp] theorem markMultiple_rmcf : s.markMultiple.rmcf = s.rmcf := rfl
@[simp] theorem markMultiple_drct : s.markMultiple.drct = s.drct := rfl
@[simp] theorem markMultiple_drcf : s.markMultiple.drcf = s.drcf := rfl
@[simp] theorem markMultiple_drm0 : s.markMultiple.drm0 = s.drm0 := rfl
@[simp] theorem markMultiple_drm1 : s.markMultiple.drm1 = s.drm1 := rfl
@[simp] theorem markMultiple_drm2 : s.markMultiple.drm2 = s.drm2 := rfl
@[simp] theorem markMultiple_drm3 : s.markMultiple.drm3 = s.drm3 := rfl
@[simp] theorem markMultiple_pict0 : s.markMultiple.pict0 = s.pict0 := rfl
@[simp] theorem markMultiple_pict1 : s.markMultiple.pict1 = s.pict1 := rfl
@[simp] theorem markMultiple_ict : s.markMultiple.ict = s.ict := rfl
@[simp] theorem markMultiple_dma0 : s.markMultiple.dma0 = s.dma0 := rfl
@[simp] theorem markMultiple_dma1 : s.markMultiple.dma1 = s.dma1 := rfl
@[simp] theorem markMultiple_tailAddr : s.markMultiple.tailAddr = s.tailAddr := rfl
@[simp] theorem markMultiple_tailCount : s.markMultiple.tailCount = s.tailCount := rfl
@[simp] theorem markMultiple_poct : s.markMultiple.poct = s.poct := rfl
@[simp] theorem markMultiple_pout : s.markMultiple.pout = s.pout := rfl
@[simp] theorem markMultiple_poen : s.markMultiple.poen = s.poen := rfl
@[simp] theorem markMultiple_pioSeen : s.markMultiple.pioSeen = s.pioSeen := rfl
@[simp] theorem markMultiple_pioAge : s.markMultiple.pioAge = s.pioAge := rfl
@[simp] theorem markMultiple_serial : s.markMultiple.serial = s.serial := rfl
@[simp] theorem markMultiple_pport : s.markMultiple.pport = s.pport := rfl
@[simp] theorem markMultiple_video : s.markMultiple.video = s.video := rfl
@[simp] theorem markMultiple_pins : s.markMultiple.pins = s.pins := rfl
@[simp] theorem markMultiple_schedule : s.markMultiple.schedule = s.schedule := rfl
@[simp] theorem markMultiple_outbox : s.markMultiple.outbox = s.outbox := rfl
@[simp] theorem markMultiple_free : s.markMultiple.free = s.free := rfl

/-! ### reserve -/

@[simp] theorem reserve_variant : s.reserve.variant = s.variant := rfl
@[simp] theorem reserve_strap : s.reserve.strap = s.strap := rfl
@[simp] theorem reserve_pc : s.reserve.pc = s.pc := rfl
@[simp] theorem reserve_npc : s.reserve.npc = s.npc := rfl
@[simp] theorem reserve_prevPc : s.reserve.prevPc = s.prevPc := rfl
@[simp] theorem reserve_gr1 : s.reserve.gr1 = s.gr1 := rfl
@[simp] theorem reserve_shadow : s.reserve.shadow = s.shadow := rfl
@[simp] theorem reserve_gr : s.reserve.gr = s.gr := rfl
@[simp] theorem reserve_lr : s.reserve.lr = s.lr := rfl
@[simp] theorem reserve_vab : s.reserve.vab = s.vab := rfl
@[simp] theorem reserve_ops : s.reserve.ops = s.ops := rfl
@[simp] theorem reserve_cps : s.reserve.cps = s.cps := rfl
@[simp] theorem reserve_cha : s.reserve.cha = s.cha := rfl
@[simp] theorem reserve_chd : s.reserve.chd = s.chd := rfl
@[simp] theorem reserve_chc : s.reserve.chc = s.chc := rfl
@[simp] theorem reserve_rbp : s.reserve.rbp = s.rbp := rfl
@[simp] theorem reserve_tmc : s.reserve.tmc = s.tmc := rfl
@[simp] theorem reserve_tmr : s.reserve.tmr = s.tmr := rfl
@[simp] theorem reserve_pc0 : s.reserve.pc0 = s.pc0 := rfl
@[simp] theorem reserve_pc1 : s.reserve.pc1 = s.pc1 := rfl
@[simp] theorem reserve_pc2 : s.reserve.pc2 = s.pc2 := rfl
@[simp] theorem reserve_ipa : s.reserve.ipa = s.ipa := rfl
@[simp] theorem reserve_ipb : s.reserve.ipb = s.ipb := rfl
@[simp] theorem reserve_ipc : s.reserve.ipc = s.ipc := rfl
@[simp] theorem reserve_q : s.reserve.q = s.q := rfl
@[simp] theorem reserve_alu : s.reserve.alu = s.alu := rfl
@[simp] theorem reserve_recent : s.reserve.recent = s.recent := rfl
@[simp] theorem reserve_fzSettle : s.reserve.fzSettle = s.fzSettle := rfl
@[simp] theorem reserve_chcMl : s.reserve.chcMl = s.chcMl := rfl
@[simp] theorem reserve_mode : s.reserve.mode = s.mode := rfl
@[simp] theorem reserve_warnLatch : s.reserve.warnLatch = s.warnLatch := rfl
@[simp] theorem reserve_warnSoon : s.reserve.warnSoon = s.warnSoon := rfl
@[simp] theorem reserve_flight : s.reserve.flight = s.flight := rfl
@[simp] theorem reserve_multiple : s.reserve.multiple = s.multiple := rfl
@[simp] theorem reserve_dbg : s.reserve.dbg = s.dbg := rfl
@[simp] theorem reserve_mem : s.reserve.mem = s.mem := rfl
@[simp] theorem reserve_romWritable : s.reserve.romWritable = s.romWritable := rfl
@[simp] theorem reserve_rmct : s.reserve.rmct = s.rmct := rfl
@[simp] theorem reserve_rmcf : s.reserve.rmcf = s.rmcf := rfl
@[simp] theorem reserve_drct : s.reserve.drct = s.drct := rfl
@[simp] theorem reserve_drcf : s.reserve.drcf = s.drcf := rfl
@[simp] theorem reserve_drm0 : s.reserve.drm0 = s.drm0 := rfl
@[simp] theorem reserve_drm1 : s.reserve.drm1 = s.drm1 := rfl
@[simp] theorem reserve_drm2 : s.reserve.drm2 = s.drm2 := rfl
@[simp] theorem reserve_drm3 : s.reserve.drm3 = s.drm3 := rfl
@[simp] theorem reserve_pict0 : s.reserve.pict0 = s.pict0 := rfl
@[simp] theorem reserve_pict1 : s.reserve.pict1 = s.pict1 := rfl
@[simp] theorem reserve_ict : s.reserve.ict = s.ict := rfl
@[simp] theorem reserve_dma0 : s.reserve.dma0 = s.dma0 := rfl
@[simp] theorem reserve_dma1 : s.reserve.dma1 = s.dma1 := rfl
@[simp] theorem reserve_tailAddr : s.reserve.tailAddr = s.tailAddr := rfl
@[simp] theorem reserve_tailCount : s.reserve.tailCount = s.tailCount := rfl
@[simp] theorem reserve_poct : s.reserve.poct = s.poct := rfl
@[simp] theorem reserve_pout : s.reserve.pout = s.pout := rfl
@[simp] theorem reserve_poen : s.reserve.poen = s.poen := rfl
@[simp] theorem reserve_pioSeen : s.reserve.pioSeen = s.pioSeen := rfl
@[simp] theorem reserve_pioAge : s.reserve.pioAge = s.pioAge := rfl
@[simp] theorem reserve_serial : s.reserve.serial = s.serial := rfl
@[simp] theorem reserve_pport : s.reserve.pport = s.pport := rfl
@[simp] theorem reserve_video : s.reserve.video = s.video := rfl
@[simp] theorem reserve_pins : s.reserve.pins = s.pins := rfl
@[simp] theorem reserve_schedule : s.reserve.schedule = s.schedule := rfl
@[simp] theorem reserve_outbox : s.reserve.outbox = s.outbox := rfl
@[simp] theorem reserve_free : s.reserve.free = s.free + freeSlots := rfl

/-! ### enter -/

@[simp] theorem enter_variant : s.enter.variant = s.variant := rfl
@[simp] theorem enter_strap : s.enter.strap = s.strap := rfl
@[simp] theorem enter_pc : s.enter.pc = s.pc := rfl
@[simp] theorem enter_npc : s.enter.npc = s.npc := rfl
@[simp] theorem enter_prevPc : s.enter.prevPc = s.prevPc := rfl
@[simp] theorem enter_gr1 : s.enter.gr1 = s.gr1 := rfl
@[simp] theorem enter_shadow : s.enter.shadow = s.shadow := rfl
@[simp] theorem enter_gr : s.enter.gr = s.gr := rfl
@[simp] theorem enter_lr : s.enter.lr = s.lr := rfl
@[simp] theorem enter_vab : s.enter.vab = s.vab := rfl
@[simp] theorem enter_ops : s.enter.ops = s.ops := rfl
@[simp] theorem enter_cps : s.enter.cps = s.cps := rfl
@[simp] theorem enter_cha : s.enter.cha = s.cha := rfl
@[simp] theorem enter_chd : s.enter.chd = s.chd := rfl
@[simp] theorem enter_chc : s.enter.chc = s.chc := rfl
@[simp] theorem enter_rbp : s.enter.rbp = s.rbp := rfl
@[simp] theorem enter_tmc : s.enter.tmc = s.tmc := rfl
@[simp] theorem enter_tmr : s.enter.tmr = s.tmr := rfl
@[simp] theorem enter_pc0 : s.enter.pc0 = s.pc0 := rfl
@[simp] theorem enter_pc1 : s.enter.pc1 = s.pc1 := rfl
@[simp] theorem enter_pc2 : s.enter.pc2 = s.pc2 := rfl
@[simp] theorem enter_ipa : s.enter.ipa = s.ipa := rfl
@[simp] theorem enter_ipb : s.enter.ipb = s.ipb := rfl
@[simp] theorem enter_ipc : s.enter.ipc = s.ipc := rfl
@[simp] theorem enter_q : s.enter.q = s.q := rfl
@[simp] theorem enter_alu : s.enter.alu = s.alu := rfl
@[simp] theorem enter_recent : s.enter.recent = Recent.none := rfl
@[simp] theorem enter_fzSettle : s.enter.fzSettle = s.fzSettle := rfl
@[simp] theorem enter_chcMl : s.enter.chcMl = s.chcMl := rfl
@[simp] theorem enter_mode : s.enter.mode = s.mode := rfl
@[simp] theorem enter_warnLatch : s.enter.warnLatch = s.warnLatch := rfl
@[simp] theorem enter_warnSoon : s.enter.warnSoon = s.warnSoon := rfl
@[simp] theorem enter_flight : s.enter.flight = s.flight := rfl
@[simp] theorem enter_multiple : s.enter.multiple = s.multiple := rfl
@[simp] theorem enter_dbg : s.enter.dbg = s.dbg := rfl
@[simp] theorem enter_mem : s.enter.mem = s.mem := rfl
@[simp] theorem enter_romWritable : s.enter.romWritable = s.romWritable := rfl
@[simp] theorem enter_rmct : s.enter.rmct = s.rmct := rfl
@[simp] theorem enter_rmcf : s.enter.rmcf = s.rmcf := rfl
@[simp] theorem enter_drct : s.enter.drct = s.drct := rfl
@[simp] theorem enter_drcf : s.enter.drcf = s.drcf := rfl
@[simp] theorem enter_drm0 : s.enter.drm0 = s.drm0 := rfl
@[simp] theorem enter_drm1 : s.enter.drm1 = s.drm1 := rfl
@[simp] theorem enter_drm2 : s.enter.drm2 = s.drm2 := rfl
@[simp] theorem enter_drm3 : s.enter.drm3 = s.drm3 := rfl
@[simp] theorem enter_pict0 : s.enter.pict0 = s.pict0 := rfl
@[simp] theorem enter_pict1 : s.enter.pict1 = s.pict1 := rfl
@[simp] theorem enter_ict : s.enter.ict = s.ict := rfl
@[simp] theorem enter_dma0 : s.enter.dma0 = s.dma0 := rfl
@[simp] theorem enter_dma1 : s.enter.dma1 = s.dma1 := rfl
@[simp] theorem enter_tailAddr : s.enter.tailAddr = s.tailAddr := rfl
@[simp] theorem enter_tailCount : s.enter.tailCount = s.tailCount := rfl
@[simp] theorem enter_poct : s.enter.poct = s.poct := rfl
@[simp] theorem enter_pout : s.enter.pout = s.pout := rfl
@[simp] theorem enter_poen : s.enter.poen = s.poen := rfl
@[simp] theorem enter_pioSeen : s.enter.pioSeen = s.pioSeen := rfl
@[simp] theorem enter_pioAge : s.enter.pioAge = s.pioAge := rfl
@[simp] theorem enter_serial : s.enter.serial = s.serial := rfl
@[simp] theorem enter_pport : s.enter.pport = s.pport := rfl
@[simp] theorem enter_video : s.enter.video = s.video := rfl
@[simp] theorem enter_pins : s.enter.pins = s.pins := rfl
@[simp] theorem enter_schedule : s.enter.schedule = s.schedule := rfl
@[simp] theorem enter_outbox : s.enter.outbox = s.outbox := rfl
@[simp] theorem enter_free : s.enter.free = s.free + freeSlots := rfl

/-! ### finishTo -/

@[simp] theorem finishTo_variant (n : Word) : (finishTo n s).variant = s.variant := rfl
@[simp] theorem finishTo_strap (n : Word) : (finishTo n s).strap = s.strap := rfl
@[simp] theorem finishTo_pc (n : Word) : (finishTo n s).pc = s.npc := rfl
@[simp] theorem finishTo_npc (n : Word) : (finishTo n s).npc = n := rfl
@[simp] theorem finishTo_prevPc (n : Word) : (finishTo n s).prevPc = s.pc := rfl
@[simp] theorem finishTo_gr1 (n : Word) : (finishTo n s).gr1 = s.gr1 := rfl
@[simp] theorem finishTo_shadow (n : Word) : (finishTo n s).shadow = s.shadow := rfl
@[simp] theorem finishTo_gr (n : Word) : (finishTo n s).gr = s.gr := rfl
@[simp] theorem finishTo_lr (n : Word) : (finishTo n s).lr = s.lr := rfl
@[simp] theorem finishTo_vab (n : Word) : (finishTo n s).vab = s.vab := rfl
@[simp] theorem finishTo_ops (n : Word) : (finishTo n s).ops = s.ops := rfl
@[simp] theorem finishTo_cps (n : Word) : (finishTo n s).cps = traceCopy s.cps := rfl
@[simp] theorem finishTo_cha (n : Word) : (finishTo n s).cha = s.cha := rfl
@[simp] theorem finishTo_chd (n : Word) : (finishTo n s).chd = s.chd := rfl
@[simp] theorem finishTo_chc (n : Word) : (finishTo n s).chc = s.chc := rfl
@[simp] theorem finishTo_rbp (n : Word) : (finishTo n s).rbp = s.rbp := rfl
@[simp] theorem finishTo_tmc (n : Word) : (finishTo n s).tmc = s.tmc := rfl
@[simp] theorem finishTo_tmr (n : Word) : (finishTo n s).tmr = s.tmr := rfl
@[simp] theorem finishTo_pc0 (n : Word) : (finishTo n s).pc0 = s.pc0 := rfl
@[simp] theorem finishTo_pc1 (n : Word) : (finishTo n s).pc1 = s.pc1 := rfl
@[simp] theorem finishTo_pc2 (n : Word) : (finishTo n s).pc2 = s.pc2 := rfl
@[simp] theorem finishTo_ipa (n : Word) : (finishTo n s).ipa = s.ipa := rfl
@[simp] theorem finishTo_ipb (n : Word) : (finishTo n s).ipb = s.ipb := rfl
@[simp] theorem finishTo_ipc (n : Word) : (finishTo n s).ipc = s.ipc := rfl
@[simp] theorem finishTo_q (n : Word) : (finishTo n s).q = s.q := rfl
@[simp] theorem finishTo_alu (n : Word) : (finishTo n s).alu = s.alu := rfl
@[simp] theorem finishTo_recent (n : Word) : (finishTo n s).recent = s.recent := rfl
@[simp] theorem finishTo_fzSettle (n : Word) : (finishTo n s).fzSettle = s.fzSettle - 1 := rfl
@[simp] theorem finishTo_chcMl (n : Word) : (finishTo n s).chcMl = s.chcMl := rfl
@[simp] theorem finishTo_mode (n : Word) : (finishTo n s).mode = s.mode := rfl
@[simp] theorem finishTo_warnLatch (n : Word) : (finishTo n s).warnLatch = s.warnLatch := rfl
@[simp] theorem finishTo_warnSoon (n : Word) : (finishTo n s).warnSoon = s.warnSoon := rfl
@[simp] theorem finishTo_flight (n : Word) : (finishTo n s).flight = s.flight := rfl
@[simp] theorem finishTo_multiple (n : Word) : (finishTo n s).multiple = s.multiple := rfl
@[simp] theorem finishTo_dbg (n : Word) : (finishTo n s).dbg = s.dbg := rfl
@[simp] theorem finishTo_mem (n : Word) : (finishTo n s).mem = s.mem := rfl
@[simp] theorem finishTo_romWritable (n : Word) : (finishTo n s).romWritable = s.romWritable := rfl
@[simp] theorem finishTo_rmct (n : Word) : (finishTo n s).rmct = s.rmct := rfl
@[simp] theorem finishTo_rmcf (n : Word) : (finishTo n s).rmcf = s.rmcf := rfl
@[simp] theorem finishTo_drct (n : Word) : (finishTo n s).drct = s.drct := rfl
@[simp] theorem finishTo_drcf (n : Word) : (finishTo n s).drcf = s.drcf := rfl
@[simp] theorem finishTo_drm0 (n : Word) : (finishTo n s).drm0 = s.drm0 := rfl
@[simp] theorem finishTo_drm1 (n : Word) : (finishTo n s).drm1 = s.drm1 := rfl
@[simp] theorem finishTo_drm2 (n : Word) : (finishTo n s).drm2 = s.drm2 := rfl
@[simp] theorem finishTo_drm3 (n : Word) : (finishTo n s).drm3 = s.drm3 := rfl
@[simp] theorem finishTo_pict0 (n : Word) : (finishTo n s).pict0 = s.pict0 := rfl
@[simp] theorem finishTo_pict1 (n : Word) : (finishTo n s).pict1 = s.pict1 := rfl
@[simp] theorem finishTo_ict (n : Word) : (finishTo n s).ict = s.ict := rfl
@[simp] theorem finishTo_dma0 (n : Word) : (finishTo n s).dma0 = s.dma0 := rfl
@[simp] theorem finishTo_dma1 (n : Word) : (finishTo n s).dma1 = s.dma1 := rfl
@[simp] theorem finishTo_tailAddr (n : Word) : (finishTo n s).tailAddr = s.tailAddr := rfl
@[simp] theorem finishTo_tailCount (n : Word) : (finishTo n s).tailCount = s.tailCount := rfl
@[simp] theorem finishTo_poct (n : Word) : (finishTo n s).poct = s.poct := rfl
@[simp] theorem finishTo_pout (n : Word) : (finishTo n s).pout = s.pout := rfl
@[simp] theorem finishTo_poen (n : Word) : (finishTo n s).poen = s.poen := rfl
@[simp] theorem finishTo_pioSeen (n : Word) : (finishTo n s).pioSeen = s.pioSeen := rfl
@[simp] theorem finishTo_pioAge (n : Word) : (finishTo n s).pioAge = s.pioAge := rfl
@[simp] theorem finishTo_serial (n : Word) : (finishTo n s).serial = s.serial := rfl
@[simp] theorem finishTo_pport (n : Word) : (finishTo n s).pport = s.pport := rfl
@[simp] theorem finishTo_video (n : Word) : (finishTo n s).video = s.video := rfl
@[simp] theorem finishTo_pins (n : Word) : (finishTo n s).pins = s.pins := rfl
@[simp] theorem finishTo_schedule (n : Word) : (finishTo n s).schedule = s.schedule := rfl
@[simp] theorem finishTo_outbox (n : Word) : (finishTo n s).outbox = s.outbox := rfl
@[simp] theorem finishTo_free (n : Word) : (finishTo n s).free = s.free + freeSlots := rfl

/-! ### finish -/

@[simp] theorem finish_variant : (finish s).variant = s.variant := rfl
@[simp] theorem finish_strap : (finish s).strap = s.strap := rfl
@[simp] theorem finish_pc : (finish s).pc = s.npc := rfl
@[simp] theorem finish_npc : (finish s).npc = s.npc + 4 := rfl
@[simp] theorem finish_prevPc : (finish s).prevPc = s.pc := rfl
@[simp] theorem finish_gr1 : (finish s).gr1 = s.gr1 := rfl
@[simp] theorem finish_shadow : (finish s).shadow = s.shadow := rfl
@[simp] theorem finish_gr : (finish s).gr = s.gr := rfl
@[simp] theorem finish_lr : (finish s).lr = s.lr := rfl
@[simp] theorem finish_vab : (finish s).vab = s.vab := rfl
@[simp] theorem finish_ops : (finish s).ops = s.ops := rfl
@[simp] theorem finish_cps : (finish s).cps = traceCopy s.cps := rfl
@[simp] theorem finish_cha : (finish s).cha = s.cha := rfl
@[simp] theorem finish_chd : (finish s).chd = s.chd := rfl
@[simp] theorem finish_chc : (finish s).chc = s.chc := rfl
@[simp] theorem finish_rbp : (finish s).rbp = s.rbp := rfl
@[simp] theorem finish_tmc : (finish s).tmc = s.tmc := rfl
@[simp] theorem finish_tmr : (finish s).tmr = s.tmr := rfl
@[simp] theorem finish_pc0 : (finish s).pc0 = s.pc0 := rfl
@[simp] theorem finish_pc1 : (finish s).pc1 = s.pc1 := rfl
@[simp] theorem finish_pc2 : (finish s).pc2 = s.pc2 := rfl
@[simp] theorem finish_ipa : (finish s).ipa = s.ipa := rfl
@[simp] theorem finish_ipb : (finish s).ipb = s.ipb := rfl
@[simp] theorem finish_ipc : (finish s).ipc = s.ipc := rfl
@[simp] theorem finish_q : (finish s).q = s.q := rfl
@[simp] theorem finish_alu : (finish s).alu = s.alu := rfl
@[simp] theorem finish_recent : (finish s).recent = s.recent := rfl
@[simp] theorem finish_fzSettle : (finish s).fzSettle = s.fzSettle - 1 := rfl
@[simp] theorem finish_chcMl : (finish s).chcMl = s.chcMl := rfl
@[simp] theorem finish_mode : (finish s).mode = s.mode := rfl
@[simp] theorem finish_warnLatch : (finish s).warnLatch = s.warnLatch := rfl
@[simp] theorem finish_warnSoon : (finish s).warnSoon = s.warnSoon := rfl
@[simp] theorem finish_flight : (finish s).flight = s.flight := rfl
@[simp] theorem finish_multiple : (finish s).multiple = s.multiple := rfl
@[simp] theorem finish_dbg : (finish s).dbg = s.dbg := rfl
@[simp] theorem finish_mem : (finish s).mem = s.mem := rfl
@[simp] theorem finish_romWritable : (finish s).romWritable = s.romWritable := rfl
@[simp] theorem finish_rmct : (finish s).rmct = s.rmct := rfl
@[simp] theorem finish_rmcf : (finish s).rmcf = s.rmcf := rfl
@[simp] theorem finish_drct : (finish s).drct = s.drct := rfl
@[simp] theorem finish_drcf : (finish s).drcf = s.drcf := rfl
@[simp] theorem finish_drm0 : (finish s).drm0 = s.drm0 := rfl
@[simp] theorem finish_drm1 : (finish s).drm1 = s.drm1 := rfl
@[simp] theorem finish_drm2 : (finish s).drm2 = s.drm2 := rfl
@[simp] theorem finish_drm3 : (finish s).drm3 = s.drm3 := rfl
@[simp] theorem finish_pict0 : (finish s).pict0 = s.pict0 := rfl
@[simp] theorem finish_pict1 : (finish s).pict1 = s.pict1 := rfl
@[simp] theorem finish_ict : (finish s).ict = s.ict := rfl
@[simp] theorem finish_dma0 : (finish s).dma0 = s.dma0 := rfl
@[simp] theorem finish_dma1 : (finish s).dma1 = s.dma1 := rfl
@[simp] theorem finish_tailAddr : (finish s).tailAddr = s.tailAddr := rfl
@[simp] theorem finish_tailCount : (finish s).tailCount = s.tailCount := rfl
@[simp] theorem finish_poct : (finish s).poct = s.poct := rfl
@[simp] theorem finish_pout : (finish s).pout = s.pout := rfl
@[simp] theorem finish_poen : (finish s).poen = s.poen := rfl
@[simp] theorem finish_pioSeen : (finish s).pioSeen = s.pioSeen := rfl
@[simp] theorem finish_pioAge : (finish s).pioAge = s.pioAge := rfl
@[simp] theorem finish_serial : (finish s).serial = s.serial := rfl
@[simp] theorem finish_pport : (finish s).pport = s.pport := rfl
@[simp] theorem finish_video : (finish s).video = s.video := rfl
@[simp] theorem finish_pins : (finish s).pins = s.pins := rfl
@[simp] theorem finish_schedule : (finish s).schedule = s.schedule := rfl
@[simp] theorem finish_outbox : (finish s).outbox = s.outbox := rfl
@[simp] theorem finish_free : (finish s).free = s.free + freeSlots := rfl

/-! ### saveStatus -/

@[simp] theorem saveStatus_variant : (saveStatus s).variant = s.variant := rfl
@[simp] theorem saveStatus_strap : (saveStatus s).strap = s.strap := rfl
@[simp] theorem saveStatus_pc : (saveStatus s).pc = s.pc := rfl
@[simp] theorem saveStatus_npc : (saveStatus s).npc = s.npc := rfl
@[simp] theorem saveStatus_prevPc : (saveStatus s).prevPc = s.prevPc := rfl
@[simp] theorem saveStatus_gr1 : (saveStatus s).gr1 = s.gr1 := rfl
@[simp] theorem saveStatus_shadow : (saveStatus s).shadow = s.shadow := rfl
@[simp] theorem saveStatus_gr : (saveStatus s).gr = s.gr := rfl
@[simp] theorem saveStatus_lr : (saveStatus s).lr = s.lr := rfl
@[simp] theorem saveStatus_vab : (saveStatus s).vab = s.vab := rfl
@[simp] theorem saveStatus_ops : (saveStatus s).ops = cpsValue s := rfl
@[simp] theorem saveStatus_cps : (saveStatus s).cps = trapCps s.cps := rfl
@[simp] theorem saveStatus_cha : (saveStatus s).cha = s.cha := rfl
@[simp] theorem saveStatus_chd : (saveStatus s).chd = s.chd := rfl
@[simp] theorem saveStatus_chc : (saveStatus s).chc = s.chc := rfl
@[simp] theorem saveStatus_rbp : (saveStatus s).rbp = s.rbp := rfl
@[simp] theorem saveStatus_tmc : (saveStatus s).tmc = s.tmc := rfl
@[simp] theorem saveStatus_tmr : (saveStatus s).tmr = s.tmr := rfl
@[simp] theorem saveStatus_pc0 : (saveStatus s).pc0 = s.pc0 := rfl
@[simp] theorem saveStatus_pc1 : (saveStatus s).pc1 = s.pc1 := rfl
@[simp] theorem saveStatus_pc2 : (saveStatus s).pc2 = s.pc2 := rfl
@[simp] theorem saveStatus_ipa : (saveStatus s).ipa = s.ipa := rfl
@[simp] theorem saveStatus_ipb : (saveStatus s).ipb = s.ipb := rfl
@[simp] theorem saveStatus_ipc : (saveStatus s).ipc = s.ipc := rfl
@[simp] theorem saveStatus_q : (saveStatus s).q = s.q := rfl
@[simp] theorem saveStatus_alu : (saveStatus s).alu = s.alu := rfl
@[simp] theorem saveStatus_recent : (saveStatus s).recent = s.recent := rfl
@[simp] theorem saveStatus_fzSettle : (saveStatus s).fzSettle = s.fzSettle := rfl
@[simp] theorem saveStatus_chcMl : (saveStatus s).chcMl = s.chcMl := rfl
@[simp] theorem saveStatus_mode : (saveStatus s).mode = s.mode := rfl
@[simp] theorem saveStatus_warnLatch : (saveStatus s).warnLatch = s.warnLatch := rfl
@[simp] theorem saveStatus_warnSoon : (saveStatus s).warnSoon = s.warnSoon := rfl
@[simp] theorem saveStatus_flight : (saveStatus s).flight = s.flight := rfl
@[simp] theorem saveStatus_multiple : (saveStatus s).multiple = s.multiple := rfl
@[simp] theorem saveStatus_dbg : (saveStatus s).dbg = s.dbg := rfl
@[simp] theorem saveStatus_mem : (saveStatus s).mem = s.mem := rfl
@[simp] theorem saveStatus_romWritable : (saveStatus s).romWritable = s.romWritable := rfl
@[simp] theorem saveStatus_rmct : (saveStatus s).rmct = s.rmct := rfl
@[simp] theorem saveStatus_rmcf : (saveStatus s).rmcf = s.rmcf := rfl
@[simp] theorem saveStatus_drct : (saveStatus s).drct = s.drct := rfl
@[simp] theorem saveStatus_drcf : (saveStatus s).drcf = s.drcf := rfl
@[simp] theorem saveStatus_drm0 : (saveStatus s).drm0 = s.drm0 := rfl
@[simp] theorem saveStatus_drm1 : (saveStatus s).drm1 = s.drm1 := rfl
@[simp] theorem saveStatus_drm2 : (saveStatus s).drm2 = s.drm2 := rfl
@[simp] theorem saveStatus_drm3 : (saveStatus s).drm3 = s.drm3 := rfl
@[simp] theorem saveStatus_pict0 : (saveStatus s).pict0 = s.pict0 := rfl
@[simp] theorem saveStatus_pict1 : (saveStatus s).pict1 = s.pict1 := rfl
@[simp] theorem saveStatus_ict : (saveStatus s).ict = s.ict := rfl
@[simp] theorem saveStatus_dma0 : (saveStatus s).dma0 = s.dma0 := rfl
@[simp] theorem saveStatus_dma1 : (saveStatus s).dma1 = s.dma1 := rfl
@[simp] theorem saveStatus_tailAddr : (saveStatus s).tailAddr = s.tailAddr := rfl
@[simp] theorem saveStatus_tailCount : (saveStatus s).tailCount = s.tailCount := rfl
@[simp] theorem saveStatus_poct : (saveStatus s).poct = s.poct := rfl
@[simp] theorem saveStatus_pout : (saveStatus s).pout = s.pout := rfl
@[simp] theorem saveStatus_poen : (saveStatus s).poen = s.poen := rfl
@[simp] theorem saveStatus_pioSeen : (saveStatus s).pioSeen = s.pioSeen := rfl
@[simp] theorem saveStatus_pioAge : (saveStatus s).pioAge = s.pioAge := rfl
@[simp] theorem saveStatus_serial : (saveStatus s).serial = s.serial := rfl
@[simp] theorem saveStatus_pport : (saveStatus s).pport = s.pport := rfl
@[simp] theorem saveStatus_video : (saveStatus s).video = s.video := rfl
@[simp] theorem saveStatus_pins : (saveStatus s).pins = s.pins := rfl
@[simp] theorem saveStatus_schedule : (saveStatus s).schedule = s.schedule := rfl
@[simp] theorem saveStatus_outbox : (saveStatus s).outbox = s.outbox := rfl
@[simp] theorem saveStatus_free : (saveStatus s).free = s.free := rfl

/-! ### enterHandler -/

@[simp] theorem enterHandler_variant (a : Word) : (enterHandler a s).variant = s.variant := rfl
@[simp] theorem enterHandler_strap (a : Word) : (enterHandler a s).strap = s.strap := rfl
@[simp] theorem enterHandler_pc (a : Word) : (enterHandler a s).pc = wordAligned a := rfl
@[simp] theorem enterHandler_npc (a : Word) : (enterHandler a s).npc = wordAligned a + 4 := rfl
@[simp] theorem enterHandler_prevPc (a : Word) : (enterHandler a s).prevPc = s.prevPc := rfl
@[simp] theorem enterHandler_gr1 (a : Word) : (enterHandler a s).gr1 = s.gr1 := rfl
@[simp] theorem enterHandler_shadow (a : Word) : (enterHandler a s).shadow = s.shadow := rfl
@[simp] theorem enterHandler_gr (a : Word) : (enterHandler a s).gr = s.gr := rfl
@[simp] theorem enterHandler_lr (a : Word) : (enterHandler a s).lr = s.lr := rfl
@[simp] theorem enterHandler_vab (a : Word) : (enterHandler a s).vab = s.vab := rfl
@[simp] theorem enterHandler_ops (a : Word) : (enterHandler a s).ops = s.ops := rfl
@[simp] theorem enterHandler_cps (a : Word) : (enterHandler a s).cps = s.cps := rfl
@[simp] theorem enterHandler_cha (a : Word) : (enterHandler a s).cha = s.cha := rfl
@[simp] theorem enterHandler_chd (a : Word) : (enterHandler a s).chd = s.chd := rfl
@[simp] theorem enterHandler_chc (a : Word) : (enterHandler a s).chc = s.chc := rfl
@[simp] theorem enterHandler_rbp (a : Word) : (enterHandler a s).rbp = s.rbp := rfl
@[simp] theorem enterHandler_tmc (a : Word) : (enterHandler a s).tmc = s.tmc := rfl
@[simp] theorem enterHandler_tmr (a : Word) : (enterHandler a s).tmr = s.tmr := rfl
@[simp] theorem enterHandler_pc0 (a : Word) : (enterHandler a s).pc0 = s.pc0 := rfl
@[simp] theorem enterHandler_pc1 (a : Word) : (enterHandler a s).pc1 = s.pc1 := rfl
@[simp] theorem enterHandler_pc2 (a : Word) : (enterHandler a s).pc2 = s.pc2 := rfl
@[simp] theorem enterHandler_ipa (a : Word) : (enterHandler a s).ipa = s.ipa := rfl
@[simp] theorem enterHandler_ipb (a : Word) : (enterHandler a s).ipb = s.ipb := rfl
@[simp] theorem enterHandler_ipc (a : Word) : (enterHandler a s).ipc = s.ipc := rfl
@[simp] theorem enterHandler_q (a : Word) : (enterHandler a s).q = s.q := rfl
@[simp] theorem enterHandler_alu (a : Word) : (enterHandler a s).alu = s.alu := rfl
@[simp] theorem enterHandler_recent (a : Word) : (enterHandler a s).recent = Recent.none := rfl
@[simp] theorem enterHandler_fzSettle (a : Word) : (enterHandler a s).fzSettle = 0 := rfl
@[simp] theorem enterHandler_chcMl (a : Word) : (enterHandler a s).chcMl = s.chcMl := rfl
@[simp] theorem enterHandler_mode (a : Word) : (enterHandler a s).mode = s.mode := rfl
@[simp] theorem enterHandler_warnLatch (a : Word) : (enterHandler a s).warnLatch = s.warnLatch := rfl
@[simp] theorem enterHandler_warnSoon (a : Word) : (enterHandler a s).warnSoon = s.warnSoon := rfl
@[simp] theorem enterHandler_flight (a : Word) : (enterHandler a s).flight = none := rfl
@[simp] theorem enterHandler_multiple (a : Word) : (enterHandler a s).multiple = s.multiple := rfl
@[simp] theorem enterHandler_dbg (a : Word) : (enterHandler a s).dbg = s.dbg := rfl
@[simp] theorem enterHandler_mem (a : Word) : (enterHandler a s).mem = s.mem := rfl
@[simp] theorem enterHandler_romWritable (a : Word) : (enterHandler a s).romWritable = s.romWritable := rfl
@[simp] theorem enterHandler_rmct (a : Word) : (enterHandler a s).rmct = s.rmct := rfl
@[simp] theorem enterHandler_rmcf (a : Word) : (enterHandler a s).rmcf = s.rmcf := rfl
@[simp] theorem enterHandler_drct (a : Word) : (enterHandler a s).drct = s.drct := rfl
@[simp] theorem enterHandler_drcf (a : Word) : (enterHandler a s).drcf = s.drcf := rfl
@[simp] theorem enterHandler_drm0 (a : Word) : (enterHandler a s).drm0 = s.drm0 := rfl
@[simp] theorem enterHandler_drm1 (a : Word) : (enterHandler a s).drm1 = s.drm1 := rfl
@[simp] theorem enterHandler_drm2 (a : Word) : (enterHandler a s).drm2 = s.drm2 := rfl
@[simp] theorem enterHandler_drm3 (a : Word) : (enterHandler a s).drm3 = s.drm3 := rfl
@[simp] theorem enterHandler_pict0 (a : Word) : (enterHandler a s).pict0 = s.pict0 := rfl
@[simp] theorem enterHandler_pict1 (a : Word) : (enterHandler a s).pict1 = s.pict1 := rfl
@[simp] theorem enterHandler_ict (a : Word) : (enterHandler a s).ict = s.ict := rfl
@[simp] theorem enterHandler_dma0 (a : Word) : (enterHandler a s).dma0 = s.dma0 := rfl
@[simp] theorem enterHandler_dma1 (a : Word) : (enterHandler a s).dma1 = s.dma1 := rfl
@[simp] theorem enterHandler_tailAddr (a : Word) : (enterHandler a s).tailAddr = s.tailAddr := rfl
@[simp] theorem enterHandler_tailCount (a : Word) : (enterHandler a s).tailCount = s.tailCount := rfl
@[simp] theorem enterHandler_poct (a : Word) : (enterHandler a s).poct = s.poct := rfl
@[simp] theorem enterHandler_pout (a : Word) : (enterHandler a s).pout = s.pout := rfl
@[simp] theorem enterHandler_poen (a : Word) : (enterHandler a s).poen = s.poen := rfl
@[simp] theorem enterHandler_pioSeen (a : Word) : (enterHandler a s).pioSeen = s.pioSeen := rfl
@[simp] theorem enterHandler_pioAge (a : Word) : (enterHandler a s).pioAge = s.pioAge := rfl
@[simp] theorem enterHandler_serial (a : Word) : (enterHandler a s).serial = s.serial := rfl
@[simp] theorem enterHandler_pport (a : Word) : (enterHandler a s).pport = s.pport := rfl
@[simp] theorem enterHandler_video (a : Word) : (enterHandler a s).video = s.video := rfl
@[simp] theorem enterHandler_pins (a : Word) : (enterHandler a s).pins = s.pins := rfl
@[simp] theorem enterHandler_schedule (a : Word) : (enterHandler a s).schedule = s.schedule := rfl
@[simp] theorem enterHandler_outbox (a : Word) : (enterHandler a s).outbox = s.outbox := rfl
@[simp] theorem enterHandler_free (a : Word) : (enterHandler a s).free = s.free + freeSlots := rfl

/-! ### launch -/

@[simp] theorem launch_variant (f : Option Flight) : (s.launch f).variant = s.variant := rfl
@[simp] theorem launch_strap (f : Option Flight) : (s.launch f).strap = s.strap := rfl
@[simp] theorem launch_pc (f : Option Flight) : (s.launch f).pc = s.pc := rfl
@[simp] theorem launch_npc (f : Option Flight) : (s.launch f).npc = s.npc := rfl
@[simp] theorem launch_prevPc (f : Option Flight) : (s.launch f).prevPc = s.prevPc := rfl
@[simp] theorem launch_gr1 (f : Option Flight) : (s.launch f).gr1 = s.gr1 := rfl
@[simp] theorem launch_shadow (f : Option Flight) : (s.launch f).shadow = s.shadow := rfl
@[simp] theorem launch_gr (f : Option Flight) : (s.launch f).gr = s.gr := rfl
@[simp] theorem launch_lr (f : Option Flight) : (s.launch f).lr = s.lr := rfl
@[simp] theorem launch_vab (f : Option Flight) : (s.launch f).vab = s.vab := rfl
@[simp] theorem launch_ops (f : Option Flight) : (s.launch f).ops = s.ops := rfl
@[simp] theorem launch_cps (f : Option Flight) : (s.launch f).cps = s.cps := rfl
@[simp] theorem launch_cha (f : Option Flight) : (s.launch f).cha = s.cha := rfl
@[simp] theorem launch_chd (f : Option Flight) : (s.launch f).chd = s.chd := rfl
@[simp] theorem launch_chc (f : Option Flight) : (s.launch f).chc = s.chc := rfl
@[simp] theorem launch_rbp (f : Option Flight) : (s.launch f).rbp = s.rbp := rfl
@[simp] theorem launch_tmc (f : Option Flight) : (s.launch f).tmc = s.tmc := rfl
@[simp] theorem launch_tmr (f : Option Flight) : (s.launch f).tmr = s.tmr := rfl
@[simp] theorem launch_pc0 (f : Option Flight) : (s.launch f).pc0 = s.pc0 := rfl
@[simp] theorem launch_pc1 (f : Option Flight) : (s.launch f).pc1 = s.pc1 := rfl
@[simp] theorem launch_pc2 (f : Option Flight) : (s.launch f).pc2 = s.pc2 := rfl
@[simp] theorem launch_ipa (f : Option Flight) : (s.launch f).ipa = s.ipa := rfl
@[simp] theorem launch_ipb (f : Option Flight) : (s.launch f).ipb = s.ipb := rfl
@[simp] theorem launch_ipc (f : Option Flight) : (s.launch f).ipc = s.ipc := rfl
@[simp] theorem launch_q (f : Option Flight) : (s.launch f).q = s.q := rfl
@[simp] theorem launch_alu (f : Option Flight) : (s.launch f).alu = s.alu := rfl
@[simp] theorem launch_recent (f : Option Flight) : (s.launch f).recent = s.recent := rfl
@[simp] theorem launch_fzSettle (f : Option Flight) : (s.launch f).fzSettle = s.fzSettle := rfl
@[simp] theorem launch_chcMl (f : Option Flight) : (s.launch f).chcMl = s.chcMl := rfl
@[simp] theorem launch_mode (f : Option Flight) : (s.launch f).mode = s.mode := rfl
@[simp] theorem launch_warnLatch (f : Option Flight) : (s.launch f).warnLatch = s.warnLatch := rfl
@[simp] theorem launch_warnSoon (f : Option Flight) : (s.launch f).warnSoon = s.warnSoon := rfl
@[simp] theorem launch_flight (f : Option Flight) : (s.launch f).flight = f := rfl
@[simp] theorem launch_multiple (f : Option Flight) : (s.launch f).multiple = s.multiple := rfl
@[simp] theorem launch_dbg (f : Option Flight) : (s.launch f).dbg = s.dbg := rfl
@[simp] theorem launch_mem (f : Option Flight) : (s.launch f).mem = s.mem := rfl
@[simp] theorem launch_romWritable (f : Option Flight) : (s.launch f).romWritable = s.romWritable := rfl
@[simp] theorem launch_rmct (f : Option Flight) : (s.launch f).rmct = s.rmct := rfl
@[simp] theorem launch_rmcf (f : Option Flight) : (s.launch f).rmcf = s.rmcf := rfl
@[simp] theorem launch_drct (f : Option Flight) : (s.launch f).drct = s.drct := rfl
@[simp] theorem launch_drcf (f : Option Flight) : (s.launch f).drcf = s.drcf := rfl
@[simp] theorem launch_drm0 (f : Option Flight) : (s.launch f).drm0 = s.drm0 := rfl
@[simp] theorem launch_drm1 (f : Option Flight) : (s.launch f).drm1 = s.drm1 := rfl
@[simp] theorem launch_drm2 (f : Option Flight) : (s.launch f).drm2 = s.drm2 := rfl
@[simp] theorem launch_drm3 (f : Option Flight) : (s.launch f).drm3 = s.drm3 := rfl
@[simp] theorem launch_pict0 (f : Option Flight) : (s.launch f).pict0 = s.pict0 := rfl
@[simp] theorem launch_pict1 (f : Option Flight) : (s.launch f).pict1 = s.pict1 := rfl
@[simp] theorem launch_ict (f : Option Flight) : (s.launch f).ict = s.ict := rfl
@[simp] theorem launch_dma0 (f : Option Flight) : (s.launch f).dma0 = s.dma0 := rfl
@[simp] theorem launch_dma1 (f : Option Flight) : (s.launch f).dma1 = s.dma1 := rfl
@[simp] theorem launch_tailAddr (f : Option Flight) : (s.launch f).tailAddr = s.tailAddr := rfl
@[simp] theorem launch_tailCount (f : Option Flight) : (s.launch f).tailCount = s.tailCount := rfl
@[simp] theorem launch_poct (f : Option Flight) : (s.launch f).poct = s.poct := rfl
@[simp] theorem launch_pout (f : Option Flight) : (s.launch f).pout = s.pout := rfl
@[simp] theorem launch_poen (f : Option Flight) : (s.launch f).poen = s.poen := rfl
@[simp] theorem launch_pioSeen (f : Option Flight) : (s.launch f).pioSeen = s.pioSeen := rfl
@[simp] theorem launch_pioAge (f : Option Flight) : (s.launch f).pioAge = s.pioAge := rfl
@[simp] theorem launch_serial (f : Option Flight) : (s.launch f).serial = s.serial := rfl
@[simp] theorem launch_pport (f : Option Flight) : (s.launch f).pport = s.pport := rfl
@[simp] theorem launch_video (f : Option Flight) : (s.launch f).video = s.video := rfl
@[simp] theorem launch_pins (f : Option Flight) : (s.launch f).pins = s.pins := rfl
@[simp] theorem launch_schedule (f : Option Flight) : (s.launch f).schedule = s.schedule := rfl
@[simp] theorem launch_outbox (f : Option Flight) : (s.launch f).outbox = s.outbox := rfl
@[simp] theorem launch_free (f : Option Flight) : (s.launch f).free = s.free := rfl

/-! ### putReg -/

@[simp] theorem putReg_variant (k : Bool) (n : AbsReg) (v : Word) : (s.putReg k n v).variant = s.variant := rfl
@[simp] theorem putReg_strap (k : Bool) (n : AbsReg) (v : Word) : (s.putReg k n v).strap = s.strap := rfl
@[simp] theorem putReg_pc (k : Bool) (n : AbsReg) (v : Word) : (s.putReg k n v).pc = s.pc := rfl
@[simp] theorem putReg_npc (k : Bool) (n : AbsReg) (v : Word) : (s.putReg k n v).npc = s.npc := rfl
@[simp] theorem putReg_prevPc (k : Bool) (n : AbsReg) (v : Word) : (s.putReg k n v).prevPc = s.prevPc := rfl
@[simp] theorem putReg_gr1 (k : Bool) (n : AbsReg) (v : Word) : (s.putReg k n v).gr1 = if n = 1 then v else s.gr1 := rfl
@[simp] theorem putReg_shadow (k : Bool) (n : AbsReg) (v : Word) : (s.putReg k n v).shadow = shadowAfter k n v s := rfl
@[simp] theorem putReg_vab (k : Bool) (n : AbsReg) (v : Word) : (s.putReg k n v).vab = s.vab := rfl
@[simp] theorem putReg_ops (k : Bool) (n : AbsReg) (v : Word) : (s.putReg k n v).ops = s.ops := rfl
@[simp] theorem putReg_cps (k : Bool) (n : AbsReg) (v : Word) : (s.putReg k n v).cps = s.cps := rfl
@[simp] theorem putReg_cha (k : Bool) (n : AbsReg) (v : Word) : (s.putReg k n v).cha = s.cha := rfl
@[simp] theorem putReg_chd (k : Bool) (n : AbsReg) (v : Word) : (s.putReg k n v).chd = s.chd := rfl
@[simp] theorem putReg_chc (k : Bool) (n : AbsReg) (v : Word) : (s.putReg k n v).chc = s.chc := rfl
@[simp] theorem putReg_rbp (k : Bool) (n : AbsReg) (v : Word) : (s.putReg k n v).rbp = s.rbp := rfl
@[simp] theorem putReg_tmc (k : Bool) (n : AbsReg) (v : Word) : (s.putReg k n v).tmc = s.tmc := rfl
@[simp] theorem putReg_tmr (k : Bool) (n : AbsReg) (v : Word) : (s.putReg k n v).tmr = s.tmr := rfl
@[simp] theorem putReg_pc0 (k : Bool) (n : AbsReg) (v : Word) : (s.putReg k n v).pc0 = s.pc0 := rfl
@[simp] theorem putReg_pc1 (k : Bool) (n : AbsReg) (v : Word) : (s.putReg k n v).pc1 = s.pc1 := rfl
@[simp] theorem putReg_pc2 (k : Bool) (n : AbsReg) (v : Word) : (s.putReg k n v).pc2 = s.pc2 := rfl
@[simp] theorem putReg_ipa (k : Bool) (n : AbsReg) (v : Word) : (s.putReg k n v).ipa = s.ipa := rfl
@[simp] theorem putReg_ipb (k : Bool) (n : AbsReg) (v : Word) : (s.putReg k n v).ipb = s.ipb := rfl
@[simp] theorem putReg_ipc (k : Bool) (n : AbsReg) (v : Word) : (s.putReg k n v).ipc = s.ipc := rfl
@[simp] theorem putReg_q (k : Bool) (n : AbsReg) (v : Word) : (s.putReg k n v).q = s.q := rfl
@[simp] theorem putReg_alu (k : Bool) (n : AbsReg) (v : Word) : (s.putReg k n v).alu = s.alu := rfl
@[simp] theorem putReg_fzSettle (k : Bool) (n : AbsReg) (v : Word) : (s.putReg k n v).fzSettle = s.fzSettle := rfl
@[simp] theorem putReg_chcMl (k : Bool) (n : AbsReg) (v : Word) : (s.putReg k n v).chcMl = s.chcMl := rfl
@[simp] theorem putReg_mode (k : Bool) (n : AbsReg) (v : Word) : (s.putReg k n v).mode = s.mode := rfl
@[simp] theorem putReg_warnLatch (k : Bool) (n : AbsReg) (v : Word) : (s.putReg k n v).warnLatch = s.warnLatch := rfl
@[simp] theorem putReg_warnSoon (k : Bool) (n : AbsReg) (v : Word) : (s.putReg k n v).warnSoon = s.warnSoon := rfl
@[simp] theorem putReg_flight (k : Bool) (n : AbsReg) (v : Word) : (s.putReg k n v).flight = s.flight := rfl
@[simp] theorem putReg_multiple (k : Bool) (n : AbsReg) (v : Word) : (s.putReg k n v).multiple = s.multiple := rfl
@[simp] theorem putReg_dbg (k : Bool) (n : AbsReg) (v : Word) : (s.putReg k n v).dbg = s.dbg := rfl
@[simp] theorem putReg_mem (k : Bool) (n : AbsReg) (v : Word) : (s.putReg k n v).mem = s.mem := rfl
@[simp] theorem putReg_romWritable (k : Bool) (n : AbsReg) (v : Word) : (s.putReg k n v).romWritable = s.romWritable := rfl
@[simp] theorem putReg_rmct (k : Bool) (n : AbsReg) (v : Word) : (s.putReg k n v).rmct = s.rmct := rfl
@[simp] theorem putReg_rmcf (k : Bool) (n : AbsReg) (v : Word) : (s.putReg k n v).rmcf = s.rmcf := rfl
@[simp] theorem putReg_drct (k : Bool) (n : AbsReg) (v : Word) : (s.putReg k n v).drct = s.drct := rfl
@[simp] theorem putReg_drcf (k : Bool) (n : AbsReg) (v : Word) : (s.putReg k n v).drcf = s.drcf := rfl
@[simp] theorem putReg_drm0 (k : Bool) (n : AbsReg) (v : Word) : (s.putReg k n v).drm0 = s.drm0 := rfl
@[simp] theorem putReg_drm1 (k : Bool) (n : AbsReg) (v : Word) : (s.putReg k n v).drm1 = s.drm1 := rfl
@[simp] theorem putReg_drm2 (k : Bool) (n : AbsReg) (v : Word) : (s.putReg k n v).drm2 = s.drm2 := rfl
@[simp] theorem putReg_drm3 (k : Bool) (n : AbsReg) (v : Word) : (s.putReg k n v).drm3 = s.drm3 := rfl
@[simp] theorem putReg_pict0 (k : Bool) (n : AbsReg) (v : Word) : (s.putReg k n v).pict0 = s.pict0 := rfl
@[simp] theorem putReg_pict1 (k : Bool) (n : AbsReg) (v : Word) : (s.putReg k n v).pict1 = s.pict1 := rfl
@[simp] theorem putReg_ict (k : Bool) (n : AbsReg) (v : Word) : (s.putReg k n v).ict = s.ict := rfl
@[simp] theorem putReg_dma0 (k : Bool) (n : AbsReg) (v : Word) : (s.putReg k n v).dma0 = s.dma0 := rfl
@[simp] theorem putReg_dma1 (k : Bool) (n : AbsReg) (v : Word) : (s.putReg k n v).dma1 = s.dma1 := rfl
@[simp] theorem putReg_tailAddr (k : Bool) (n : AbsReg) (v : Word) : (s.putReg k n v).tailAddr = s.tailAddr := rfl
@[simp] theorem putReg_tailCount (k : Bool) (n : AbsReg) (v : Word) : (s.putReg k n v).tailCount = s.tailCount := rfl
@[simp] theorem putReg_poct (k : Bool) (n : AbsReg) (v : Word) : (s.putReg k n v).poct = s.poct := rfl
@[simp] theorem putReg_pout (k : Bool) (n : AbsReg) (v : Word) : (s.putReg k n v).pout = s.pout := rfl
@[simp] theorem putReg_poen (k : Bool) (n : AbsReg) (v : Word) : (s.putReg k n v).poen = s.poen := rfl
@[simp] theorem putReg_pioSeen (k : Bool) (n : AbsReg) (v : Word) : (s.putReg k n v).pioSeen = s.pioSeen := rfl
@[simp] theorem putReg_pioAge (k : Bool) (n : AbsReg) (v : Word) : (s.putReg k n v).pioAge = s.pioAge := rfl
@[simp] theorem putReg_serial (k : Bool) (n : AbsReg) (v : Word) : (s.putReg k n v).serial = s.serial := rfl
@[simp] theorem putReg_pport (k : Bool) (n : AbsReg) (v : Word) : (s.putReg k n v).pport = s.pport := rfl
@[simp] theorem putReg_video (k : Bool) (n : AbsReg) (v : Word) : (s.putReg k n v).video = s.video := rfl
@[simp] theorem putReg_pins (k : Bool) (n : AbsReg) (v : Word) : (s.putReg k n v).pins = s.pins := rfl
@[simp] theorem putReg_schedule (k : Bool) (n : AbsReg) (v : Word) : (s.putReg k n v).schedule = s.schedule := rfl
@[simp] theorem putReg_outbox (k : Bool) (n : AbsReg) (v : Word) : (s.putReg k n v).outbox = s.outbox := rfl
@[simp] theorem putReg_free (k : Bool) (n : AbsReg) (v : Word) : (s.putReg k n v).free = s.free := rfl

/-! ### writeIpa -/

@[simp] theorem writeIpa_variant (n : AbsReg) : (s.writeIpa n).variant = s.variant := rfl
@[simp] theorem writeIpa_strap (n : AbsReg) : (s.writeIpa n).strap = s.strap := rfl
@[simp] theorem writeIpa_pc (n : AbsReg) : (s.writeIpa n).pc = s.pc := rfl
@[simp] theorem writeIpa_npc (n : AbsReg) : (s.writeIpa n).npc = s.npc := rfl
@[simp] theorem writeIpa_prevPc (n : AbsReg) : (s.writeIpa n).prevPc = s.prevPc := rfl
@[simp] theorem writeIpa_gr1 (n : AbsReg) : (s.writeIpa n).gr1 = s.gr1 := rfl
@[simp] theorem writeIpa_shadow (n : AbsReg) : (s.writeIpa n).shadow = s.shadow := rfl
@[simp] theorem writeIpa_gr (n : AbsReg) : (s.writeIpa n).gr = s.gr := rfl
@[simp] theorem writeIpa_lr (n : AbsReg) : (s.writeIpa n).lr = s.lr := rfl
@[simp] theorem writeIpa_vab (n : AbsReg) : (s.writeIpa n).vab = s.vab := rfl
@[simp] theorem writeIpa_ops (n : AbsReg) : (s.writeIpa n).ops = s.ops := rfl
@[simp] theorem writeIpa_cps (n : AbsReg) : (s.writeIpa n).cps = s.cps := rfl
@[simp] theorem writeIpa_cha (n : AbsReg) : (s.writeIpa n).cha = s.cha := rfl
@[simp] theorem writeIpa_chd (n : AbsReg) : (s.writeIpa n).chd = s.chd := rfl
@[simp] theorem writeIpa_chc (n : AbsReg) : (s.writeIpa n).chc = s.chc := rfl
@[simp] theorem writeIpa_rbp (n : AbsReg) : (s.writeIpa n).rbp = s.rbp := rfl
@[simp] theorem writeIpa_tmc (n : AbsReg) : (s.writeIpa n).tmc = s.tmc := rfl
@[simp] theorem writeIpa_tmr (n : AbsReg) : (s.writeIpa n).tmr = s.tmr := rfl
@[simp] theorem writeIpa_pc0 (n : AbsReg) : (s.writeIpa n).pc0 = s.pc0 := rfl
@[simp] theorem writeIpa_pc1 (n : AbsReg) : (s.writeIpa n).pc1 = s.pc1 := rfl
@[simp] theorem writeIpa_pc2 (n : AbsReg) : (s.writeIpa n).pc2 = s.pc2 := rfl
@[simp] theorem writeIpa_ipa (n : AbsReg) : (s.writeIpa n).ipa = pointerWord n := rfl
@[simp] theorem writeIpa_ipb (n : AbsReg) : (s.writeIpa n).ipb = s.ipb := rfl
@[simp] theorem writeIpa_ipc (n : AbsReg) : (s.writeIpa n).ipc = s.ipc := rfl
@[simp] theorem writeIpa_q (n : AbsReg) : (s.writeIpa n).q = s.q := rfl
@[simp] theorem writeIpa_alu (n : AbsReg) : (s.writeIpa n).alu = s.alu := rfl
@[simp] theorem writeIpa_fzSettle (n : AbsReg) : (s.writeIpa n).fzSettle = s.fzSettle := rfl
@[simp] theorem writeIpa_chcMl (n : AbsReg) : (s.writeIpa n).chcMl = s.chcMl := rfl
@[simp] theorem writeIpa_mode (n : AbsReg) : (s.writeIpa n).mode = s.mode := rfl
@[simp] theorem writeIpa_warnLatch (n : AbsReg) : (s.writeIpa n).warnLatch = s.warnLatch := rfl
@[simp] theorem writeIpa_warnSoon (n : AbsReg) : (s.writeIpa n).warnSoon = s.warnSoon := rfl
@[simp] theorem writeIpa_flight (n : AbsReg) : (s.writeIpa n).flight = s.flight := rfl
@[simp] theorem writeIpa_multiple (n : AbsReg) : (s.writeIpa n).multiple = s.multiple := rfl
@[simp] theorem writeIpa_dbg (n : AbsReg) : (s.writeIpa n).dbg = s.dbg := rfl
@[simp] theorem writeIpa_mem (n : AbsReg) : (s.writeIpa n).mem = s.mem := rfl
@[simp] theorem writeIpa_romWritable (n : AbsReg) : (s.writeIpa n).romWritable = s.romWritable := rfl
@[simp] theorem writeIpa_rmct (n : AbsReg) : (s.writeIpa n).rmct = s.rmct := rfl
@[simp] theorem writeIpa_rmcf (n : AbsReg) : (s.writeIpa n).rmcf = s.rmcf := rfl
@[simp] theorem writeIpa_drct (n : AbsReg) : (s.writeIpa n).drct = s.drct := rfl
@[simp] theorem writeIpa_drcf (n : AbsReg) : (s.writeIpa n).drcf = s.drcf := rfl
@[simp] theorem writeIpa_drm0 (n : AbsReg) : (s.writeIpa n).drm0 = s.drm0 := rfl
@[simp] theorem writeIpa_drm1 (n : AbsReg) : (s.writeIpa n).drm1 = s.drm1 := rfl
@[simp] theorem writeIpa_drm2 (n : AbsReg) : (s.writeIpa n).drm2 = s.drm2 := rfl
@[simp] theorem writeIpa_drm3 (n : AbsReg) : (s.writeIpa n).drm3 = s.drm3 := rfl
@[simp] theorem writeIpa_pict0 (n : AbsReg) : (s.writeIpa n).pict0 = s.pict0 := rfl
@[simp] theorem writeIpa_pict1 (n : AbsReg) : (s.writeIpa n).pict1 = s.pict1 := rfl
@[simp] theorem writeIpa_ict (n : AbsReg) : (s.writeIpa n).ict = s.ict := rfl
@[simp] theorem writeIpa_dma0 (n : AbsReg) : (s.writeIpa n).dma0 = s.dma0 := rfl
@[simp] theorem writeIpa_dma1 (n : AbsReg) : (s.writeIpa n).dma1 = s.dma1 := rfl
@[simp] theorem writeIpa_tailAddr (n : AbsReg) : (s.writeIpa n).tailAddr = s.tailAddr := rfl
@[simp] theorem writeIpa_tailCount (n : AbsReg) : (s.writeIpa n).tailCount = s.tailCount := rfl
@[simp] theorem writeIpa_poct (n : AbsReg) : (s.writeIpa n).poct = s.poct := rfl
@[simp] theorem writeIpa_pout (n : AbsReg) : (s.writeIpa n).pout = s.pout := rfl
@[simp] theorem writeIpa_poen (n : AbsReg) : (s.writeIpa n).poen = s.poen := rfl
@[simp] theorem writeIpa_pioSeen (n : AbsReg) : (s.writeIpa n).pioSeen = s.pioSeen := rfl
@[simp] theorem writeIpa_pioAge (n : AbsReg) : (s.writeIpa n).pioAge = s.pioAge := rfl
@[simp] theorem writeIpa_serial (n : AbsReg) : (s.writeIpa n).serial = s.serial := rfl
@[simp] theorem writeIpa_pport (n : AbsReg) : (s.writeIpa n).pport = s.pport := rfl
@[simp] theorem writeIpa_video (n : AbsReg) : (s.writeIpa n).video = s.video := rfl
@[simp] theorem writeIpa_pins (n : AbsReg) : (s.writeIpa n).pins = s.pins := rfl
@[simp] theorem writeIpa_schedule (n : AbsReg) : (s.writeIpa n).schedule = s.schedule := rfl
@[simp] theorem writeIpa_outbox (n : AbsReg) : (s.writeIpa n).outbox = s.outbox := rfl
@[simp] theorem writeIpa_free (n : AbsReg) : (s.writeIpa n).free = s.free := rfl

/-! ### writeIpb -/

@[simp] theorem writeIpb_variant (n : AbsReg) : (s.writeIpb n).variant = s.variant := rfl
@[simp] theorem writeIpb_strap (n : AbsReg) : (s.writeIpb n).strap = s.strap := rfl
@[simp] theorem writeIpb_pc (n : AbsReg) : (s.writeIpb n).pc = s.pc := rfl
@[simp] theorem writeIpb_npc (n : AbsReg) : (s.writeIpb n).npc = s.npc := rfl
@[simp] theorem writeIpb_prevPc (n : AbsReg) : (s.writeIpb n).prevPc = s.prevPc := rfl
@[simp] theorem writeIpb_gr1 (n : AbsReg) : (s.writeIpb n).gr1 = s.gr1 := rfl
@[simp] theorem writeIpb_shadow (n : AbsReg) : (s.writeIpb n).shadow = s.shadow := rfl
@[simp] theorem writeIpb_gr (n : AbsReg) : (s.writeIpb n).gr = s.gr := rfl
@[simp] theorem writeIpb_lr (n : AbsReg) : (s.writeIpb n).lr = s.lr := rfl
@[simp] theorem writeIpb_vab (n : AbsReg) : (s.writeIpb n).vab = s.vab := rfl
@[simp] theorem writeIpb_ops (n : AbsReg) : (s.writeIpb n).ops = s.ops := rfl
@[simp] theorem writeIpb_cps (n : AbsReg) : (s.writeIpb n).cps = s.cps := rfl
@[simp] theorem writeIpb_cha (n : AbsReg) : (s.writeIpb n).cha = s.cha := rfl
@[simp] theorem writeIpb_chd (n : AbsReg) : (s.writeIpb n).chd = s.chd := rfl
@[simp] theorem writeIpb_chc (n : AbsReg) : (s.writeIpb n).chc = s.chc := rfl
@[simp] theorem writeIpb_rbp (n : AbsReg) : (s.writeIpb n).rbp = s.rbp := rfl
@[simp] theorem writeIpb_tmc (n : AbsReg) : (s.writeIpb n).tmc = s.tmc := rfl
@[simp] theorem writeIpb_tmr (n : AbsReg) : (s.writeIpb n).tmr = s.tmr := rfl
@[simp] theorem writeIpb_pc0 (n : AbsReg) : (s.writeIpb n).pc0 = s.pc0 := rfl
@[simp] theorem writeIpb_pc1 (n : AbsReg) : (s.writeIpb n).pc1 = s.pc1 := rfl
@[simp] theorem writeIpb_pc2 (n : AbsReg) : (s.writeIpb n).pc2 = s.pc2 := rfl
@[simp] theorem writeIpb_ipa (n : AbsReg) : (s.writeIpb n).ipa = s.ipa := rfl
@[simp] theorem writeIpb_ipb (n : AbsReg) : (s.writeIpb n).ipb = pointerWord n := rfl
@[simp] theorem writeIpb_ipc (n : AbsReg) : (s.writeIpb n).ipc = s.ipc := rfl
@[simp] theorem writeIpb_q (n : AbsReg) : (s.writeIpb n).q = s.q := rfl
@[simp] theorem writeIpb_alu (n : AbsReg) : (s.writeIpb n).alu = s.alu := rfl
@[simp] theorem writeIpb_fzSettle (n : AbsReg) : (s.writeIpb n).fzSettle = s.fzSettle := rfl
@[simp] theorem writeIpb_chcMl (n : AbsReg) : (s.writeIpb n).chcMl = s.chcMl := rfl
@[simp] theorem writeIpb_mode (n : AbsReg) : (s.writeIpb n).mode = s.mode := rfl
@[simp] theorem writeIpb_warnLatch (n : AbsReg) : (s.writeIpb n).warnLatch = s.warnLatch := rfl
@[simp] theorem writeIpb_warnSoon (n : AbsReg) : (s.writeIpb n).warnSoon = s.warnSoon := rfl
@[simp] theorem writeIpb_flight (n : AbsReg) : (s.writeIpb n).flight = s.flight := rfl
@[simp] theorem writeIpb_multiple (n : AbsReg) : (s.writeIpb n).multiple = s.multiple := rfl
@[simp] theorem writeIpb_dbg (n : AbsReg) : (s.writeIpb n).dbg = s.dbg := rfl
@[simp] theorem writeIpb_mem (n : AbsReg) : (s.writeIpb n).mem = s.mem := rfl
@[simp] theorem writeIpb_romWritable (n : AbsReg) : (s.writeIpb n).romWritable = s.romWritable := rfl
@[simp] theorem writeIpb_rmct (n : AbsReg) : (s.writeIpb n).rmct = s.rmct := rfl
@[simp] theorem writeIpb_rmcf (n : AbsReg) : (s.writeIpb n).rmcf = s.rmcf := rfl
@[simp] theorem writeIpb_drct (n : AbsReg) : (s.writeIpb n).drct = s.drct := rfl
@[simp] theorem writeIpb_drcf (n : AbsReg) : (s.writeIpb n).drcf = s.drcf := rfl
@[simp] theorem writeIpb_drm0 (n : AbsReg) : (s.writeIpb n).drm0 = s.drm0 := rfl
@[simp] theorem writeIpb_drm1 (n : AbsReg) : (s.writeIpb n).drm1 = s.drm1 := rfl
@[simp] theorem writeIpb_drm2 (n : AbsReg) : (s.writeIpb n).drm2 = s.drm2 := rfl
@[simp] theorem writeIpb_drm3 (n : AbsReg) : (s.writeIpb n).drm3 = s.drm3 := rfl
@[simp] theorem writeIpb_pict0 (n : AbsReg) : (s.writeIpb n).pict0 = s.pict0 := rfl
@[simp] theorem writeIpb_pict1 (n : AbsReg) : (s.writeIpb n).pict1 = s.pict1 := rfl
@[simp] theorem writeIpb_ict (n : AbsReg) : (s.writeIpb n).ict = s.ict := rfl
@[simp] theorem writeIpb_dma0 (n : AbsReg) : (s.writeIpb n).dma0 = s.dma0 := rfl
@[simp] theorem writeIpb_dma1 (n : AbsReg) : (s.writeIpb n).dma1 = s.dma1 := rfl
@[simp] theorem writeIpb_tailAddr (n : AbsReg) : (s.writeIpb n).tailAddr = s.tailAddr := rfl
@[simp] theorem writeIpb_tailCount (n : AbsReg) : (s.writeIpb n).tailCount = s.tailCount := rfl
@[simp] theorem writeIpb_poct (n : AbsReg) : (s.writeIpb n).poct = s.poct := rfl
@[simp] theorem writeIpb_pout (n : AbsReg) : (s.writeIpb n).pout = s.pout := rfl
@[simp] theorem writeIpb_poen (n : AbsReg) : (s.writeIpb n).poen = s.poen := rfl
@[simp] theorem writeIpb_pioSeen (n : AbsReg) : (s.writeIpb n).pioSeen = s.pioSeen := rfl
@[simp] theorem writeIpb_pioAge (n : AbsReg) : (s.writeIpb n).pioAge = s.pioAge := rfl
@[simp] theorem writeIpb_serial (n : AbsReg) : (s.writeIpb n).serial = s.serial := rfl
@[simp] theorem writeIpb_pport (n : AbsReg) : (s.writeIpb n).pport = s.pport := rfl
@[simp] theorem writeIpb_video (n : AbsReg) : (s.writeIpb n).video = s.video := rfl
@[simp] theorem writeIpb_pins (n : AbsReg) : (s.writeIpb n).pins = s.pins := rfl
@[simp] theorem writeIpb_schedule (n : AbsReg) : (s.writeIpb n).schedule = s.schedule := rfl
@[simp] theorem writeIpb_outbox (n : AbsReg) : (s.writeIpb n).outbox = s.outbox := rfl
@[simp] theorem writeIpb_free (n : AbsReg) : (s.writeIpb n).free = s.free := rfl

/-! ### writeIpc -/

@[simp] theorem writeIpc_variant (n : AbsReg) : (s.writeIpc n).variant = s.variant := rfl
@[simp] theorem writeIpc_strap (n : AbsReg) : (s.writeIpc n).strap = s.strap := rfl
@[simp] theorem writeIpc_pc (n : AbsReg) : (s.writeIpc n).pc = s.pc := rfl
@[simp] theorem writeIpc_npc (n : AbsReg) : (s.writeIpc n).npc = s.npc := rfl
@[simp] theorem writeIpc_prevPc (n : AbsReg) : (s.writeIpc n).prevPc = s.prevPc := rfl
@[simp] theorem writeIpc_gr1 (n : AbsReg) : (s.writeIpc n).gr1 = s.gr1 := rfl
@[simp] theorem writeIpc_shadow (n : AbsReg) : (s.writeIpc n).shadow = s.shadow := rfl
@[simp] theorem writeIpc_gr (n : AbsReg) : (s.writeIpc n).gr = s.gr := rfl
@[simp] theorem writeIpc_lr (n : AbsReg) : (s.writeIpc n).lr = s.lr := rfl
@[simp] theorem writeIpc_vab (n : AbsReg) : (s.writeIpc n).vab = s.vab := rfl
@[simp] theorem writeIpc_ops (n : AbsReg) : (s.writeIpc n).ops = s.ops := rfl
@[simp] theorem writeIpc_cps (n : AbsReg) : (s.writeIpc n).cps = s.cps := rfl
@[simp] theorem writeIpc_cha (n : AbsReg) : (s.writeIpc n).cha = s.cha := rfl
@[simp] theorem writeIpc_chd (n : AbsReg) : (s.writeIpc n).chd = s.chd := rfl
@[simp] theorem writeIpc_chc (n : AbsReg) : (s.writeIpc n).chc = s.chc := rfl
@[simp] theorem writeIpc_rbp (n : AbsReg) : (s.writeIpc n).rbp = s.rbp := rfl
@[simp] theorem writeIpc_tmc (n : AbsReg) : (s.writeIpc n).tmc = s.tmc := rfl
@[simp] theorem writeIpc_tmr (n : AbsReg) : (s.writeIpc n).tmr = s.tmr := rfl
@[simp] theorem writeIpc_pc0 (n : AbsReg) : (s.writeIpc n).pc0 = s.pc0 := rfl
@[simp] theorem writeIpc_pc1 (n : AbsReg) : (s.writeIpc n).pc1 = s.pc1 := rfl
@[simp] theorem writeIpc_pc2 (n : AbsReg) : (s.writeIpc n).pc2 = s.pc2 := rfl
@[simp] theorem writeIpc_ipa (n : AbsReg) : (s.writeIpc n).ipa = s.ipa := rfl
@[simp] theorem writeIpc_ipb (n : AbsReg) : (s.writeIpc n).ipb = s.ipb := rfl
@[simp] theorem writeIpc_ipc (n : AbsReg) : (s.writeIpc n).ipc = pointerWord n := rfl
@[simp] theorem writeIpc_q (n : AbsReg) : (s.writeIpc n).q = s.q := rfl
@[simp] theorem writeIpc_alu (n : AbsReg) : (s.writeIpc n).alu = s.alu := rfl
@[simp] theorem writeIpc_fzSettle (n : AbsReg) : (s.writeIpc n).fzSettle = s.fzSettle := rfl
@[simp] theorem writeIpc_chcMl (n : AbsReg) : (s.writeIpc n).chcMl = s.chcMl := rfl
@[simp] theorem writeIpc_mode (n : AbsReg) : (s.writeIpc n).mode = s.mode := rfl
@[simp] theorem writeIpc_warnLatch (n : AbsReg) : (s.writeIpc n).warnLatch = s.warnLatch := rfl
@[simp] theorem writeIpc_warnSoon (n : AbsReg) : (s.writeIpc n).warnSoon = s.warnSoon := rfl
@[simp] theorem writeIpc_flight (n : AbsReg) : (s.writeIpc n).flight = s.flight := rfl
@[simp] theorem writeIpc_multiple (n : AbsReg) : (s.writeIpc n).multiple = s.multiple := rfl
@[simp] theorem writeIpc_dbg (n : AbsReg) : (s.writeIpc n).dbg = s.dbg := rfl
@[simp] theorem writeIpc_mem (n : AbsReg) : (s.writeIpc n).mem = s.mem := rfl
@[simp] theorem writeIpc_romWritable (n : AbsReg) : (s.writeIpc n).romWritable = s.romWritable := rfl
@[simp] theorem writeIpc_rmct (n : AbsReg) : (s.writeIpc n).rmct = s.rmct := rfl
@[simp] theorem writeIpc_rmcf (n : AbsReg) : (s.writeIpc n).rmcf = s.rmcf := rfl
@[simp] theorem writeIpc_drct (n : AbsReg) : (s.writeIpc n).drct = s.drct := rfl
@[simp] theorem writeIpc_drcf (n : AbsReg) : (s.writeIpc n).drcf = s.drcf := rfl
@[simp] theorem writeIpc_drm0 (n : AbsReg) : (s.writeIpc n).drm0 = s.drm0 := rfl
@[simp] theorem writeIpc_drm1 (n : AbsReg) : (s.writeIpc n).drm1 = s.drm1 := rfl
@[simp] theorem writeIpc_drm2 (n : AbsReg) : (s.writeIpc n).drm2 = s.drm2 := rfl
@[simp] theorem writeIpc_drm3 (n : AbsReg) : (s.writeIpc n).drm3 = s.drm3 := rfl
@[simp] theorem writeIpc_pict0 (n : AbsReg) : (s.writeIpc n).pict0 = s.pict0 := rfl
@[simp] theorem writeIpc_pict1 (n : AbsReg) : (s.writeIpc n).pict1 = s.pict1 := rfl
@[simp] theorem writeIpc_ict (n : AbsReg) : (s.writeIpc n).ict = s.ict := rfl
@[simp] theorem writeIpc_dma0 (n : AbsReg) : (s.writeIpc n).dma0 = s.dma0 := rfl
@[simp] theorem writeIpc_dma1 (n : AbsReg) : (s.writeIpc n).dma1 = s.dma1 := rfl
@[simp] theorem writeIpc_tailAddr (n : AbsReg) : (s.writeIpc n).tailAddr = s.tailAddr := rfl
@[simp] theorem writeIpc_tailCount (n : AbsReg) : (s.writeIpc n).tailCount = s.tailCount := rfl
@[simp] theorem writeIpc_poct (n : AbsReg) : (s.writeIpc n).poct = s.poct := rfl
@[simp] theorem writeIpc_pout (n : AbsReg) : (s.writeIpc n).pout = s.pout := rfl
@[simp] theorem writeIpc_poen (n : AbsReg) : (s.writeIpc n).poen = s.poen := rfl
@[simp] theorem writeIpc_pioSeen (n : AbsReg) : (s.writeIpc n).pioSeen = s.pioSeen := rfl
@[simp] theorem writeIpc_pioAge (n : AbsReg) : (s.writeIpc n).pioAge = s.pioAge := rfl
@[simp] theorem writeIpc_serial (n : AbsReg) : (s.writeIpc n).serial = s.serial := rfl
@[simp] theorem writeIpc_pport (n : AbsReg) : (s.writeIpc n).pport = s.pport := rfl
@[simp] theorem writeIpc_video (n : AbsReg) : (s.writeIpc n).video = s.video := rfl
@[simp] theorem writeIpc_pins (n : AbsReg) : (s.writeIpc n).pins = s.pins := rfl
@[simp] theorem writeIpc_schedule (n : AbsReg) : (s.writeIpc n).schedule = s.schedule := rfl
@[simp] theorem writeIpc_outbox (n : AbsReg) : (s.writeIpc n).outbox = s.outbox := rfl
@[simp] theorem writeIpc_free (n : AbsReg) : (s.writeIpc n).free = s.free := rfl

/-! ### setPointers -/

@[simp] theorem setPointers_variant (n : Numbers) : (s.setPointers n).variant = s.variant := rfl
@[simp] theorem setPointers_strap (n : Numbers) : (s.setPointers n).strap = s.strap := rfl
@[simp] theorem setPointers_pc (n : Numbers) : (s.setPointers n).pc = s.pc := rfl
@[simp] theorem setPointers_npc (n : Numbers) : (s.setPointers n).npc = s.npc := rfl
@[simp] theorem setPointers_prevPc (n : Numbers) : (s.setPointers n).prevPc = s.prevPc := rfl
@[simp] theorem setPointers_gr1 (n : Numbers) : (s.setPointers n).gr1 = s.gr1 := rfl
@[simp] theorem setPointers_shadow (n : Numbers) : (s.setPointers n).shadow = s.shadow := rfl
@[simp] theorem setPointers_gr (n : Numbers) : (s.setPointers n).gr = s.gr := rfl
@[simp] theorem setPointers_lr (n : Numbers) : (s.setPointers n).lr = s.lr := rfl
@[simp] theorem setPointers_vab (n : Numbers) : (s.setPointers n).vab = s.vab := rfl
@[simp] theorem setPointers_ops (n : Numbers) : (s.setPointers n).ops = s.ops := rfl
@[simp] theorem setPointers_cps (n : Numbers) : (s.setPointers n).cps = s.cps := rfl
@[simp] theorem setPointers_cha (n : Numbers) : (s.setPointers n).cha = s.cha := rfl
@[simp] theorem setPointers_chd (n : Numbers) : (s.setPointers n).chd = s.chd := rfl
@[simp] theorem setPointers_chc (n : Numbers) : (s.setPointers n).chc = s.chc := rfl
@[simp] theorem setPointers_rbp (n : Numbers) : (s.setPointers n).rbp = s.rbp := rfl
@[simp] theorem setPointers_tmc (n : Numbers) : (s.setPointers n).tmc = s.tmc := rfl
@[simp] theorem setPointers_tmr (n : Numbers) : (s.setPointers n).tmr = s.tmr := rfl
@[simp] theorem setPointers_pc0 (n : Numbers) : (s.setPointers n).pc0 = s.pc0 := rfl
@[simp] theorem setPointers_pc1 (n : Numbers) : (s.setPointers n).pc1 = s.pc1 := rfl
@[simp] theorem setPointers_pc2 (n : Numbers) : (s.setPointers n).pc2 = s.pc2 := rfl
@[simp] theorem setPointers_ipa (n : Numbers) : (s.setPointers n).ipa = pointerWord n.a := rfl
@[simp] theorem setPointers_ipb (n : Numbers) : (s.setPointers n).ipb = pointerWord n.b := rfl
@[simp] theorem setPointers_ipc (n : Numbers) : (s.setPointers n).ipc = pointerWord n.c := rfl
@[simp] theorem setPointers_q (n : Numbers) : (s.setPointers n).q = s.q := rfl
@[simp] theorem setPointers_alu (n : Numbers) : (s.setPointers n).alu = s.alu := rfl
@[simp] theorem setPointers_fzSettle (n : Numbers) : (s.setPointers n).fzSettle = s.fzSettle := rfl
@[simp] theorem setPointers_chcMl (n : Numbers) : (s.setPointers n).chcMl = s.chcMl := rfl
@[simp] theorem setPointers_mode (n : Numbers) : (s.setPointers n).mode = s.mode := rfl
@[simp] theorem setPointers_warnLatch (n : Numbers) : (s.setPointers n).warnLatch = s.warnLatch := rfl
@[simp] theorem setPointers_warnSoon (n : Numbers) : (s.setPointers n).warnSoon = s.warnSoon := rfl
@[simp] theorem setPointers_flight (n : Numbers) : (s.setPointers n).flight = s.flight := rfl
@[simp] theorem setPointers_multiple (n : Numbers) : (s.setPointers n).multiple = s.multiple := rfl
@[simp] theorem setPointers_dbg (n : Numbers) : (s.setPointers n).dbg = s.dbg := rfl
@[simp] theorem setPointers_mem (n : Numbers) : (s.setPointers n).mem = s.mem := rfl
@[simp] theorem setPointers_romWritable (n : Numbers) : (s.setPointers n).romWritable = s.romWritable := rfl
@[simp] theorem setPointers_rmct (n : Numbers) : (s.setPointers n).rmct = s.rmct := rfl
@[simp] theorem setPointers_rmcf (n : Numbers) : (s.setPointers n).rmcf = s.rmcf := rfl
@[simp] theorem setPointers_drct (n : Numbers) : (s.setPointers n).drct = s.drct := rfl
@[simp] theorem setPointers_drcf (n : Numbers) : (s.setPointers n).drcf = s.drcf := rfl
@[simp] theorem setPointers_drm0 (n : Numbers) : (s.setPointers n).drm0 = s.drm0 := rfl
@[simp] theorem setPointers_drm1 (n : Numbers) : (s.setPointers n).drm1 = s.drm1 := rfl
@[simp] theorem setPointers_drm2 (n : Numbers) : (s.setPointers n).drm2 = s.drm2 := rfl
@[simp] theorem setPointers_drm3 (n : Numbers) : (s.setPointers n).drm3 = s.drm3 := rfl
@[simp] theorem setPointers_pict0 (n : Numbers) : (s.setPointers n).pict0 = s.pict0 := rfl
@[simp] theorem setPointers_pict1 (n : Numbers) : (s.setPointers n).pict1 = s.pict1 := rfl
@[simp] theorem setPointers_ict (n : Numbers) : (s.setPointers n).ict = s.ict := rfl
@[simp] theorem setPointers_dma0 (n : Numbers) : (s.setPointers n).dma0 = s.dma0 := rfl
@[simp] theorem setPointers_dma1 (n : Numbers) : (s.setPointers n).dma1 = s.dma1 := rfl
@[simp] theorem setPointers_tailAddr (n : Numbers) : (s.setPointers n).tailAddr = s.tailAddr := rfl
@[simp] theorem setPointers_tailCount (n : Numbers) : (s.setPointers n).tailCount = s.tailCount := rfl
@[simp] theorem setPointers_poct (n : Numbers) : (s.setPointers n).poct = s.poct := rfl
@[simp] theorem setPointers_pout (n : Numbers) : (s.setPointers n).pout = s.pout := rfl
@[simp] theorem setPointers_poen (n : Numbers) : (s.setPointers n).poen = s.poen := rfl
@[simp] theorem setPointers_pioSeen (n : Numbers) : (s.setPointers n).pioSeen = s.pioSeen := rfl
@[simp] theorem setPointers_pioAge (n : Numbers) : (s.setPointers n).pioAge = s.pioAge := rfl
@[simp] theorem setPointers_serial (n : Numbers) : (s.setPointers n).serial = s.serial := rfl
@[simp] theorem setPointers_pport (n : Numbers) : (s.setPointers n).pport = s.pport := rfl
@[simp] theorem setPointers_video (n : Numbers) : (s.setPointers n).video = s.video := rfl
@[simp] theorem setPointers_pins (n : Numbers) : (s.setPointers n).pins = s.pins := rfl
@[simp] theorem setPointers_schedule (n : Numbers) : (s.setPointers n).schedule = s.schedule := rfl
@[simp] theorem setPointers_outbox (n : Numbers) : (s.setPointers n).outbox = s.outbox := rfl
@[simp] theorem setPointers_free (n : Numbers) : (s.setPointers n).free = s.free := rfl

/-! ### setEmulatePointers -/

@[simp] theorem setEmulatePointers_variant (a b : AbsReg) : (s.setEmulatePointers a b).variant = s.variant := rfl
@[simp] theorem setEmulatePointers_strap (a b : AbsReg) : (s.setEmulatePointers a b).strap = s.strap := rfl
@[simp] theorem setEmulatePointers_pc (a b : AbsReg) : (s.setEmulatePointers a b).pc = s.pc := rfl
@[simp] theorem setEmulatePointers_npc (a b : AbsReg) : (s.setEmulatePointers a b).npc = s.npc := rfl
@[simp] theorem setEmulatePointers_prevPc (a b : AbsReg) : (s.setEmulatePointers a b).prevPc = s.prevPc := rfl
@[simp] theorem setEmulatePointers_gr1 (a b : AbsReg) : (s.setEmulatePointers a b).gr1 = s.gr1 := rfl
@[simp] theorem setEmulatePointers_shadow (a b : AbsReg) : (s.setEmulatePointers a b).shadow = s.shadow := rfl
@[simp] theorem setEmulatePointers_gr (a b : AbsReg) : (s.setEmulatePointers a b).gr = s.gr := rfl
@[simp] theorem setEmulatePointers_lr (a b : AbsReg) : (s.setEmulatePointers a b).lr = s.lr := rfl
@[simp] theorem setEmulatePointers_vab (a b : AbsReg) : (s.setEmulatePointers a b).vab = s.vab := rfl
@[simp] theorem setEmulatePointers_ops (a b : AbsReg) : (s.setEmulatePointers a b).ops = s.ops := rfl
@[simp] theorem setEmulatePointers_cps (a b : AbsReg) : (s.setEmulatePointers a b).cps = s.cps := rfl
@[simp] theorem setEmulatePointers_cha (a b : AbsReg) : (s.setEmulatePointers a b).cha = s.cha := rfl
@[simp] theorem setEmulatePointers_chd (a b : AbsReg) : (s.setEmulatePointers a b).chd = s.chd := rfl
@[simp] theorem setEmulatePointers_chc (a b : AbsReg) : (s.setEmulatePointers a b).chc = s.chc := rfl
@[simp] theorem setEmulatePointers_rbp (a b : AbsReg) : (s.setEmulatePointers a b).rbp = s.rbp := rfl
@[simp] theorem setEmulatePointers_tmc (a b : AbsReg) : (s.setEmulatePointers a b).tmc = s.tmc := rfl
@[simp] theorem setEmulatePointers_tmr (a b : AbsReg) : (s.setEmulatePointers a b).tmr = s.tmr := rfl
@[simp] theorem setEmulatePointers_pc0 (a b : AbsReg) : (s.setEmulatePointers a b).pc0 = s.pc0 := rfl
@[simp] theorem setEmulatePointers_pc1 (a b : AbsReg) : (s.setEmulatePointers a b).pc1 = s.pc1 := rfl
@[simp] theorem setEmulatePointers_pc2 (a b : AbsReg) : (s.setEmulatePointers a b).pc2 = s.pc2 := rfl
@[simp] theorem setEmulatePointers_ipa (a b : AbsReg) : (s.setEmulatePointers a b).ipa = pointerWord a := rfl
@[simp] theorem setEmulatePointers_ipb (a b : AbsReg) : (s.setEmulatePointers a b).ipb = pointerWord b := rfl
@[simp] theorem setEmulatePointers_ipc (a b : AbsReg) : (s.setEmulatePointers a b).ipc = pointerWord (bits (s.freeWord 6) 0 8) := rfl
@[simp] theorem setEmulatePointers_q (a b : AbsReg) : (s.setEmulatePointers a b).q = s.q := rfl
@[simp] theorem setEmulatePointers_alu (a b : AbsReg) : (s.setEmulatePointers a b).alu = s.alu := rfl
@[simp] theorem setEmulatePointers_fzSettle (a b : AbsReg) : (s.setEmulatePointers a b).fzSettle = s.fzSettle := rfl
@[simp] theorem setEmulatePointers_chcMl (a b : AbsReg) : (s.setEmulatePointers a b).chcMl = s.chcMl := rfl
@[simp] theorem setEmulatePointers_mode (a b : AbsReg) : (s.setEmulatePointers a b).mode = s.mode := rfl
@[simp] theorem setEmulatePointers_warnLatch (a b : AbsReg) : (s.setEmulatePointers a b).warnLatch = s.warnLatch := rfl
@[simp] theorem setEmulatePointers_warnSoon (a b : AbsReg) : (s.setEmulatePointers a b).warnSoon = s.warnSoon := rfl
@[simp] theorem setEmulatePointers_flight (a b : AbsReg) : (s.setEmulatePointers a b).flight = s.flight := rfl
@[simp] theorem setEmulatePointers_multiple (a b : AbsReg) : (s.setEmulatePointers a b).multiple = s.multiple := rfl
@[simp] theorem setEmulatePointers_dbg (a b : AbsReg) : (s.setEmulatePointers a b).dbg = s.dbg := rfl
@[simp] theorem setEmulatePointers_mem (a b : AbsReg) : (s.setEmulatePointers a b).mem = s.mem := rfl
@[simp] theorem setEmulatePointers_romWritable (a b : AbsReg) : (s.setEmulatePointers a b).romWritable = s.romWritable := rfl
@[simp] theorem setEmulatePointers_rmct (a b : AbsReg) : (s.setEmulatePointers a b).rmct = s.rmct := rfl
@[simp] theorem setEmulatePointers_rmcf (a b : AbsReg) : (s.setEmulatePointers a b).rmcf = s.rmcf := rfl
@[simp] theorem setEmulatePointers_drct (a b : AbsReg) : (s.setEmulatePointers a b).drct = s.drct := rfl
@[simp] theorem setEmulatePointers_drcf (a b : AbsReg) : (s.setEmulatePointers a b).drcf = s.drcf := rfl
@[simp] theorem setEmulatePointers_drm0 (a b : AbsReg) : (s.setEmulatePointers a b).drm0 = s.drm0 := rfl
@[simp] theorem setEmulatePointers_drm1 (a b : AbsReg) : (s.setEmulatePointers a b).drm1 = s.drm1 := rfl
@[simp] theorem setEmulatePointers_drm2 (a b : AbsReg) : (s.setEmulatePointers a b).drm2 = s.drm2 := rfl
@[simp] theorem setEmulatePointers_drm3 (a b : AbsReg) : (s.setEmulatePointers a b).drm3 = s.drm3 := rfl
@[simp] theorem setEmulatePointers_pict0 (a b : AbsReg) : (s.setEmulatePointers a b).pict0 = s.pict0 := rfl
@[simp] theorem setEmulatePointers_pict1 (a b : AbsReg) : (s.setEmulatePointers a b).pict1 = s.pict1 := rfl
@[simp] theorem setEmulatePointers_ict (a b : AbsReg) : (s.setEmulatePointers a b).ict = s.ict := rfl
@[simp] theorem setEmulatePointers_dma0 (a b : AbsReg) : (s.setEmulatePointers a b).dma0 = s.dma0 := rfl
@[simp] theorem setEmulatePointers_dma1 (a b : AbsReg) : (s.setEmulatePointers a b).dma1 = s.dma1 := rfl
@[simp] theorem setEmulatePointers_tailAddr (a b : AbsReg) : (s.setEmulatePointers a b).tailAddr = s.tailAddr := rfl
@[simp] theorem setEmulatePointers_tailCount (a b : AbsReg) : (s.setEmulatePointers a b).tailCount = s.tailCount := rfl
@[simp] theorem setEmulatePointers_poct (a b : AbsReg) : (s.setEmulatePointers a b).poct = s.poct := rfl
@[simp] theorem setEmulatePointers_pout (a b : AbsReg) : (s.setEmulatePointers a b).pout = s.pout := rfl
@[simp] theorem setEmulatePointers_poen (a b : AbsReg) : (s.setEmulatePointers a b).poen = s.poen := rfl
@[simp] theorem setEmulatePointers_pioSeen (a b : AbsReg) : (s.setEmulatePointers a b).pioSeen = s.pioSeen := rfl
@[simp] theorem setEmulatePointers_pioAge (a b : AbsReg) : (s.setEmulatePointers a b).pioAge = s.pioAge := rfl
@[simp] theorem setEmulatePointers_serial (a b : AbsReg) : (s.setEmulatePointers a b).serial = s.serial := rfl
@[simp] theorem setEmulatePointers_pport (a b : AbsReg) : (s.setEmulatePointers a b).pport = s.pport := rfl
@[simp] theorem setEmulatePointers_video (a b : AbsReg) : (s.setEmulatePointers a b).video = s.video := rfl
@[simp] theorem setEmulatePointers_pins (a b : AbsReg) : (s.setEmulatePointers a b).pins = s.pins := rfl
@[simp] theorem setEmulatePointers_schedule (a b : AbsReg) : (s.setEmulatePointers a b).schedule = s.schedule := rfl
@[simp] theorem setEmulatePointers_outbox (a b : AbsReg) : (s.setEmulatePointers a b).outbox = s.outbox := rfl
@[simp] theorem setEmulatePointers_free (a b : AbsReg) : (s.setEmulatePointers a b).free = s.free := rfl

/-! ### storeAt -/

@[simp] theorem storeAt_variant (o : BitVec 3) (a v : Word) : (s.storeAt o a v).variant = s.variant := rfl
@[simp] theorem storeAt_strap (o : BitVec 3) (a v : Word) : (s.storeAt o a v).strap = s.strap := rfl
@[simp] theorem storeAt_pc (o : BitVec 3) (a v : Word) : (s.storeAt o a v).pc = s.pc := rfl
@[simp] theorem storeAt_npc (o : BitVec 3) (a v : Word) : (s.storeAt o a v).npc = s.npc := rfl
@[simp] theorem storeAt_prevPc (o : BitVec 3) (a v : Word) : (s.storeAt o a v).prevPc = s.prevPc := rfl
@[simp] theorem storeAt_gr1 (o : BitVec 3) (a v : Word) : (s.storeAt o a v).gr1 = s.gr1 := rfl
@[simp] theorem storeAt_shadow (o : BitVec 3) (a v : Word) : (s.storeAt o a v).shadow = s.shadow := rfl
@[simp] theorem storeAt_gr (o : BitVec 3) (a v : Word) : (s.storeAt o a v).gr = s.gr := rfl
@[simp] theorem storeAt_lr (o : BitVec 3) (a v : Word) : (s.storeAt o a v).lr = s.lr := rfl
@[simp] theorem storeAt_vab (o : BitVec 3) (a v : Word) : (s.storeAt o a v).vab = s.vab := rfl
@[simp] theorem storeAt_ops (o : BitVec 3) (a v : Word) : (s.storeAt o a v).ops = s.ops := rfl
@[simp] theorem storeAt_cps (o : BitVec 3) (a v : Word) : (s.storeAt o a v).cps = s.cps := rfl
@[simp] theorem storeAt_cha (o : BitVec 3) (a v : Word) : (s.storeAt o a v).cha = s.cha := rfl
@[simp] theorem storeAt_chd (o : BitVec 3) (a v : Word) : (s.storeAt o a v).chd = s.chd := rfl
@[simp] theorem storeAt_chc (o : BitVec 3) (a v : Word) : (s.storeAt o a v).chc = s.chc := rfl
@[simp] theorem storeAt_rbp (o : BitVec 3) (a v : Word) : (s.storeAt o a v).rbp = s.rbp := rfl
@[simp] theorem storeAt_tmc (o : BitVec 3) (a v : Word) : (s.storeAt o a v).tmc = s.tmc := rfl
@[simp] theorem storeAt_tmr (o : BitVec 3) (a v : Word) : (s.storeAt o a v).tmr = s.tmr := rfl
@[simp] theorem storeAt_pc0 (o : BitVec 3) (a v : Word) : (s.storeAt o a v).pc0 = s.pc0 := rfl
@[simp] theorem storeAt_pc1 (o : BitVec 3) (a v : Word) : (s.storeAt o a v).pc1 = s.pc1 := rfl
@[simp] theorem storeAt_pc2 (o : BitVec 3) (a v : Word) : (s.storeAt o a v).pc2 = s.pc2 := rfl
@[simp] theorem storeAt_ipa (o : BitVec 3) (a v : Word) : (s.storeAt o a v).ipa = s.ipa := rfl
@[simp] theorem storeAt_ipb (o : BitVec 3) (a v : Word) : (s.storeAt o a v).ipb = s.ipb := rfl
@[simp] theorem storeAt_ipc (o : BitVec 3) (a v : Word) : (s.storeAt o a v).ipc = s.ipc := rfl
@[simp] theorem storeAt_q (o : BitVec 3) (a v : Word) : (s.storeAt o a v).q = s.q := rfl
@[simp] theorem storeAt_alu (o : BitVec 3) (a v : Word) : (s.storeAt o a v).alu = s.alu := rfl
@[simp] theorem storeAt_recent (o : BitVec 3) (a v : Word) : (s.storeAt o a v).recent = s.recent := rfl
@[simp] theorem storeAt_fzSettle (o : BitVec 3) (a v : Word) : (s.storeAt o a v).fzSettle = s.fzSettle := rfl
@[simp] theorem storeAt_chcMl (o : BitVec 3) (a v : Word) : (s.storeAt o a v).chcMl = s.chcMl := rfl
@[simp] theorem storeAt_mode (o : BitVec 3) (a v : Word) : (s.storeAt o a v).mode = s.mode := rfl
@[simp] theorem storeAt_warnLatch (o : BitVec 3) (a v : Word) : (s.storeAt o a v).warnLatch = s.warnLatch := rfl
@[simp] theorem storeAt_warnSoon (o : BitVec 3) (a v : Word) : (s.storeAt o a v).warnSoon = s.warnSoon := rfl
@[simp] theorem storeAt_flight (o : BitVec 3) (a v : Word) : (s.storeAt o a v).flight = s.flight := rfl
@[simp] theorem storeAt_multiple (o : BitVec 3) (a v : Word) : (s.storeAt o a v).multiple = s.multiple := rfl
@[simp] theorem storeAt_dbg (o : BitVec 3) (a v : Word) : (s.storeAt o a v).dbg = s.dbg := rfl
@[simp] theorem storeAt_mem (o : BitVec 3) (a v : Word) : (s.storeAt o a v).mem = Memory.putBytes s.mem (cellKey (accessBase o a)) (storeBytes o v) := rfl
@[simp] theorem storeAt_romWritable (o : BitVec 3) (a v : Word) : (s.storeAt o a v).romWritable = s.romWritable := rfl
@[simp] theorem storeAt_rmct (o : BitVec 3) (a v : Word) : (s.storeAt o a v).rmct = s.rmct := rfl
@[simp] theorem storeAt_rmcf (o : BitVec 3) (a v : Word) : (s.storeAt o a v).rmcf = s.rmcf := rfl
@[simp] theorem storeAt_drct (o : BitVec 3) (a v : Word) : (s.storeAt o a v).drct = s.drct := rfl
@[simp] theorem storeAt_drcf (o : BitVec 3) (a v : Word) : (s.storeAt o a v).drcf = s.drcf := rfl
@[simp] theorem storeAt_drm0 (o : BitVec 3) (a v : Word) : (s.storeAt o a v).drm0 = s.drm0 := rfl
@[simp] theorem storeAt_drm1 (o : BitVec 3) (a v : Word) : (s.storeAt o a v).drm1 = s.drm1 := rfl
@[simp] theorem storeAt_drm2 (o : BitVec 3) (a v : Word) : (s.storeAt o a v).drm2 = s.drm2 := rfl
@[simp] theorem storeAt_drm3 (o : BitVec 3) (a v : Word) : (s.storeAt o a v).drm3 = s.drm3 := rfl
@[simp] theorem storeAt_pict0 (o : BitVec 3) (a v : Word) : (s.storeAt o a v).pict0 = s.pict0 := rfl
@[simp] theorem storeAt_pict1 (o : BitVec 3) (a v : Word) : (s.storeAt o a v).pict1 = s.pict1 := rfl
@[simp] theorem storeAt_ict (o : BitVec 3) (a v : Word) : (s.storeAt o a v).ict = s.ict := rfl
@[simp] theorem storeAt_dma0 (o : BitVec 3) (a v : Word) : (s.storeAt o a v).dma0 = s.dma0 := rfl
@[simp] theorem storeAt_dma1 (o : BitVec 3) (a v : Word) : (s.storeAt o a v).dma1 = s.dma1 := rfl
@[simp] theorem storeAt_tailAddr (o : BitVec 3) (a v : Word) : (s.storeAt o a v).tailAddr = s.tailAddr := rfl
@[simp] theorem storeAt_tailCount (o : BitVec 3) (a v : Word) : (s.storeAt o a v).tailCount = s.tailCount := rfl
@[simp] theorem storeAt_poct (o : BitVec 3) (a v : Word) : (s.storeAt o a v).poct = s.poct := rfl
@[simp] theorem storeAt_pout (o : BitVec 3) (a v : Word) : (s.storeAt o a v).pout = s.pout := rfl
@[simp] theorem storeAt_poen (o : BitVec 3) (a v : Word) : (s.storeAt o a v).poen = s.poen := rfl
@[simp] theorem storeAt_pioSeen (o : BitVec 3) (a v : Word) : (s.storeAt o a v).pioSeen = s.pioSeen := rfl
@[simp] theorem storeAt_pioAge (o : BitVec 3) (a v : Word) : (s.storeAt o a v).pioAge = s.pioAge := rfl
@[simp] theorem storeAt_serial (o : BitVec 3) (a v : Word) : (s.storeAt o a v).serial = s.serial := rfl
@[simp] theorem storeAt_pport (o : BitVec 3) (a v : Word) : (s.storeAt o a v).pport = s.pport := rfl
@[simp] theorem storeAt_video (o : BitVec 3) (a v : Word) : (s.storeAt o a v).video = s.video := rfl
@[simp] theorem storeAt_pins (o : BitVec 3) (a v : Word) : (s.storeAt o a v).pins = s.pins := rfl
@[simp] theorem storeAt_schedule (o : BitVec 3) (a v : Word) : (s.storeAt o a v).schedule = s.schedule := rfl
@[simp] theorem storeAt_outbox (o : BitVec 3) (a v : Word) : (s.storeAt o a v).outbox = s.outbox := rfl
@[simp] theorem storeAt_free (o : BitVec 3) (a v : Word) : (s.storeAt o a v).free = s.free := rfl

/-! ### withSettle -/

@[simp] theorem withSettle_variant (n : Nat) : (s.withSettle n).variant = s.variant := rfl
@[simp] theorem withSettle_strap (n : Nat) : (s.withSettle n).strap = s.strap := rfl
@[simp] theorem withSettle_pc (n : Nat) : (s.withSettle n).pc = s.pc := rfl
@[simp] theorem withSettle_npc (n : Nat) : (s.withSettle n).npc = s.npc := rfl
@[simp] theorem withSettle_prevPc (n : Nat) : (s.withSettle n).prevPc = s.prevPc := rfl
@[simp] theorem withSettle_gr1 (n : Nat) : (s.withSettle n).gr1 = s.gr1 := rfl
@[simp] theorem withSettle_shadow (n : Nat) : (s.withSettle n).shadow = s.shadow := rfl
@[simp] theorem withSettle_gr (n : Nat) : (s.withSettle n).gr = s.gr := rfl
@[simp] theorem withSettle_lr (n : Nat) : (s.withSettle n).lr = s.lr := rfl
@[simp] theorem withSettle_vab (n : Nat) : (s.withSettle n).vab = s.vab := rfl
@[simp] theorem withSettle_ops (n : Nat) : (s.withSettle n).ops = s.ops := rfl
@[simp] theorem withSettle_cps (n : Nat) : (s.withSettle n).cps = s.cps := rfl
@[simp] theorem withSettle_cha (n : Nat) : (s.withSettle n).cha = s.cha := rfl
@[simp] theorem withSettle_chd (n : Nat) : (s.withSettle n).chd = s.chd := rfl
@[simp] theorem withSettle_chc (n : Nat) : (s.withSettle n).chc = s.chc := rfl
@[simp] theorem withSettle_rbp (n : Nat) : (s.withSettle n).rbp = s.rbp := rfl
@[simp] theorem withSettle_tmc (n : Nat) : (s.withSettle n).tmc = s.tmc := rfl
@[simp] theorem withSettle_tmr (n : Nat) : (s.withSettle n).tmr = s.tmr := rfl
@[simp] theorem withSettle_pc0 (n : Nat) : (s.withSettle n).pc0 = s.pc0 := rfl
@[simp] theorem withSettle_pc1 (n : Nat) : (s.withSettle n).pc1 = s.pc1 := rfl
@[simp] theorem withSettle_pc2 (n : Nat) : (s.withSettle n).pc2 = s.pc2 := rfl
@[simp] theorem withSettle_ipa (n : Nat) : (s.withSettle n).ipa = s.ipa := rfl
@[simp] theorem withSettle_ipb (n : Nat) : (s.withSettle n).ipb = s.ipb := rfl
@[simp] theorem withSettle_ipc (n : Nat) : (s.withSettle n).ipc = s.ipc := rfl
@[simp] theorem withSettle_q (n : Nat) : (s.withSettle n).q = s.q := rfl
@[simp] theorem withSettle_alu (n : Nat) : (s.withSettle n).alu = s.alu := rfl
@[simp] theorem withSettle_recent (n : Nat) : (s.withSettle n).recent = s.recent := rfl
@[simp] theorem withSettle_fzSettle (n : Nat) : (s.withSettle n).fzSettle = n := rfl
@[simp] theorem withSettle_chcMl (n : Nat) : (s.withSettle n).chcMl = s.chcMl := rfl
@[simp] theorem withSettle_mode (n : Nat) : (s.withSettle n).mode = s.mode := rfl
@[simp] theorem withSettle_warnLatch (n : Nat) : (s.withSettle n).warnLatch = s.warnLatch := rfl
@[simp] theorem withSettle_warnSoon (n : Nat) : (s.withSettle n).warnSoon = s.warnSoon := rfl
@[simp] theorem withSettle_flight (n : Nat) : (s.withSettle n).flight = s.flight := rfl
@[simp] theorem withSettle_multiple (n : Nat) : (s.withSettle n).multiple = s.multiple := rfl
@[simp] theorem withSettle_dbg (n : Nat) : (s.withSettle n).dbg = s.dbg := rfl
@[simp] theorem withSettle_mem (n : Nat) : (s.withSettle n).mem = s.mem := rfl
@[simp] theorem withSettle_romWritable (n : Nat) : (s.withSettle n).romWritable = s.romWritable := rfl
@[simp] theorem withSettle_rmct (n : Nat) : (s.withSettle n).rmct = s.rmct := rfl
@[simp] theorem withSettle_rmcf (n : Nat) : (s.withSettle n).rmcf = s.rmcf := rfl
@[simp] theorem withSettle_drct (n : Nat) : (s.withSettle n).drct = s.drct := rfl
@[simp] theorem withSettle_drcf (n : Nat) : (s.withSettle n).drcf = s.drcf := rfl
@[simp] theorem withSettle_drm0 (n : Nat) : (s.withSettle n).drm0 = s.drm0 := rfl
@[simp] theorem withSettle_drm1 (n : Nat) : (s.withSettle n).drm1 = s.drm1 := rfl
@[simp] theorem withSettle_drm2 (n : Nat) : (s.withSettle n).drm2 = s.drm2 := rfl
@[simp] theorem withSettle_drm3 (n : Nat) : (s.withSettle n).drm3 = s.drm3 := rfl
@[simp] theorem withSettle_pict0 (n : Nat) : (s.withSettle n).pict0 = s.pict0 := rfl
@[simp] theorem withSettle_pict1 (n : Nat) : (s.withSettle n).pict1 = s.pict1 := rfl
@[simp] theorem withSettle_ict (n : Nat) : (s.withSettle n).ict = s.ict := rfl
@[simp] theorem withSettle_dma0 (n : Nat) : (s.withSettle n).dma0 = s.dma0 := rfl
@[simp] theorem withSettle_dma1 (n : Nat) : (s.withSettle n).dma1 = s.dma1 := rfl
@[simp] theorem withSettle_tailAddr (n : Nat) : (s.withSettle n).tailAddr = s.tailAddr := rfl
@[simp] theorem withSettle_tailCount (n : Nat) : (s.withSettle n).tailCount = s.tailCount := rfl
@[simp] theorem withSettle_poct (n : Nat) : (s.withSettle n).poct = s.poct := rfl
@[simp] theorem withSettle_pout (n : Nat) : (s.withSettle n).pout = s.pout := rfl
@[simp] theorem withSettle_poen (n : Nat) : (s.withSettle n).poen = s.poen := rfl
@[simp] theorem withSettle_pioSeen (n : Nat) : (s.withSettle n).pioSeen = s.pioSeen := rfl
@[simp] theorem withSettle_pioAge (n : Nat) : (s.withSettle n).pioAge = s.pioAge := rfl
@[simp] theorem withSettle_serial (n : Nat) : (s.withSettle n).serial = s.serial := rfl
@[simp] theorem withSettle_pport (n : Nat) : (s.withSettle n).pport = s.pport := rfl
@[simp] theorem withSettle_video (n : Nat) : (s.withSettle n).video = s.video := rfl
@[simp] theorem withSettle_pins (n : Nat) : (s.withSettle n).pins = s.pins := rfl
@[simp] theorem withSettle_schedule (n : Nat) : (s.withSettle n).schedule = s.schedule := rfl
@[simp] theorem withSettle_outbox (n : Nat) : (s.withSettle n).outbox = s.outbox := rfl
@[simp] theorem withSettle_free (n : Nat) : (s.withSettle n).free = s.free := rfl

/-! ### floatPcs -/

@[simp] theorem floatPcs_variant : s.floatPcs.variant = s.variant := rfl
@[simp] theorem floatPcs_strap : s.floatPcs.strap = s.strap := rfl
@[simp] theorem floatPcs_pc : s.floatPcs.pc = s.pc := rfl
@[simp] theorem floatPcs_npc : s.floatPcs.npc = s.npc := rfl
@[simp] theorem floatPcs_prevPc : s.floatPcs.prevPc = s.prevPc := rfl
@[simp] theorem floatPcs_gr1 : s.floatPcs.gr1 = s.gr1 := rfl
@[simp] theorem floatPcs_shadow : s.floatPcs.shadow = s.shadow := rfl
@[simp] theorem floatPcs_gr : s.floatPcs.gr = s.gr := rfl
@[simp] theorem floatPcs_lr : s.floatPcs.lr = s.lr := rfl
@[simp] theorem floatPcs_vab : s.floatPcs.vab = s.vab := rfl
@[simp] theorem floatPcs_ops : s.floatPcs.ops = s.ops := rfl
@[simp] theorem floatPcs_cps : s.floatPcs.cps = s.cps := rfl
@[simp] theorem floatPcs_cha : s.floatPcs.cha = s.cha := rfl
@[simp] theorem floatPcs_chd : s.floatPcs.chd = s.chd := rfl
@[simp] theorem floatPcs_chc : s.floatPcs.chc = s.chc := rfl
@[simp] theorem floatPcs_rbp : s.floatPcs.rbp = s.rbp := rfl
@[simp] theorem floatPcs_tmc : s.floatPcs.tmc = s.tmc := rfl
@[simp] theorem floatPcs_tmr : s.floatPcs.tmr = s.tmr := rfl
@[simp] theorem floatPcs_pc0 : s.floatPcs.pc0 = if s.fz then s.pc0 else wordAligned (s.freeWord 0) := rfl
@[simp] theorem floatPcs_pc1 : s.floatPcs.pc1 = if s.fz then s.pc1 else wordAligned (s.freeWord 1) := rfl
@[simp] theorem floatPcs_pc2 : s.floatPcs.pc2 = if s.fz then s.pc2 else wordAligned (s.freeWord 2) := rfl
@[simp] theorem floatPcs_ipa : s.floatPcs.ipa = s.ipa := rfl
@[simp] theorem floatPcs_ipb : s.floatPcs.ipb = s.ipb := rfl
@[simp] theorem floatPcs_ipc : s.floatPcs.ipc = s.ipc := rfl
@[simp] theorem floatPcs_q : s.floatPcs.q = s.q := rfl
@[simp] theorem floatPcs_alu : s.floatPcs.alu = s.alu := rfl
@[simp] theorem floatPcs_recent : s.floatPcs.recent = s.recent := rfl
@[simp] theorem floatPcs_fzSettle : s.floatPcs.fzSettle = s.fzSettle := rfl
@[simp] theorem floatPcs_chcMl : s.floatPcs.chcMl = s.chcMl := rfl
@[simp] theorem floatPcs_mode : s.floatPcs.mode = s.mode := rfl
@[simp] theorem floatPcs_warnLatch : s.floatPcs.warnLatch = s.warnLatch := rfl
@[simp] theorem floatPcs_warnSoon : s.floatPcs.warnSoon = s.warnSoon := rfl
@[simp] theorem floatPcs_flight : s.floatPcs.flight = s.flight := rfl
@[simp] theorem floatPcs_multiple : s.floatPcs.multiple = s.multiple := rfl
@[simp] theorem floatPcs_dbg : s.floatPcs.dbg = s.dbg := rfl
@[simp] theorem floatPcs_mem : s.floatPcs.mem = s.mem := rfl
@[simp] theorem floatPcs_romWritable : s.floatPcs.romWritable = s.romWritable := rfl
@[simp] theorem floatPcs_rmct : s.floatPcs.rmct = s.rmct := rfl
@[simp] theorem floatPcs_rmcf : s.floatPcs.rmcf = s.rmcf := rfl
@[simp] theorem floatPcs_drct : s.floatPcs.drct = s.drct := rfl
@[simp] theorem floatPcs_drcf : s.floatPcs.drcf = s.drcf := rfl
@[simp] theorem floatPcs_drm0 : s.floatPcs.drm0 = s.drm0 := rfl
@[simp] theorem floatPcs_drm1 : s.floatPcs.drm1 = s.drm1 := rfl
@[simp] theorem floatPcs_drm2 : s.floatPcs.drm2 = s.drm2 := rfl
@[simp] theorem floatPcs_drm3 : s.floatPcs.drm3 = s.drm3 := rfl
@[simp] theorem floatPcs_pict0 : s.floatPcs.pict0 = s.pict0 := rfl
@[simp] theorem floatPcs_pict1 : s.floatPcs.pict1 = s.pict1 := rfl
@[simp] theorem floatPcs_ict : s.floatPcs.ict = s.ict := rfl
@[simp] theorem floatPcs_dma0 : s.floatPcs.dma0 = s.dma0 := rfl
@[simp] theorem floatPcs_dma1 : s.floatPcs.dma1 = s.dma1 := rfl
@[simp] theorem floatPcs_tailAddr : s.floatPcs.tailAddr = s.tailAddr := rfl
@[simp] theorem floatPcs_tailCount : s.floatPcs.tailCount = s.tailCount := rfl
@[simp] theorem floatPcs_poct : s.floatPcs.poct = s.poct := rfl
@[simp] theorem floatPcs_pout : s.floatPcs.pout = s.pout := rfl
@[simp] theorem floatPcs_poen : s.floatPcs.poen = s.poen := rfl
@[simp] theorem floatPcs_pioSeen : s.floatPcs.pioSeen = s.pioSeen := rfl
@[simp] theorem floatPcs_pioAge : s.floatPcs.pioAge = s.pioAge := rfl
@[simp] theorem floatPcs_serial : s.floatPcs.serial = s.serial := rfl
@[simp] theorem floatPcs_pport : s.floatPcs.pport = s.pport := rfl
@[simp] theorem floatPcs_video : s.floatPcs.video = s.video := rfl
@[simp] theorem floatPcs_pins : s.floatPcs.pins = s.pins := rfl
@[simp] theorem floatPcs_schedule : s.floatPcs.schedule = s.schedule := rfl
@[simp] theorem floatPcs_outbox : s.floatPcs.outbox = s.outbox := rfl
@[simp] theorem floatPcs_free : s.floatPcs.free = s.free := rfl

/-! ### savePcs -/

@[simp] theorem savePcs_variant : (savePcs s).variant = s.variant := rfl
@[simp] theorem savePcs_strap : (savePcs s).strap = s.strap := rfl
@[simp] theorem savePcs_pc : (savePcs s).pc = s.pc := rfl
@[simp] theorem savePcs_npc : (savePcs s).npc = s.npc := rfl
@[simp] theorem savePcs_prevPc : (savePcs s).prevPc = s.prevPc := rfl
@[simp] theorem savePcs_gr1 : (savePcs s).gr1 = s.gr1 := rfl
@[simp] theorem savePcs_shadow : (savePcs s).shadow = s.shadow := rfl
@[simp] theorem savePcs_gr : (savePcs s).gr = s.gr := rfl
@[simp] theorem savePcs_lr : (savePcs s).lr = s.lr := rfl
@[simp] theorem savePcs_vab : (savePcs s).vab = s.vab := rfl
@[simp] theorem savePcs_ops : (savePcs s).ops = s.ops := rfl
@[simp] theorem savePcs_cps : (savePcs s).cps = s.cps := rfl
@[simp] theorem savePcs_cha : (savePcs s).cha = s.cha := rfl
@[simp] theorem savePcs_chd : (savePcs s).chd = s.chd := rfl
@[simp] theorem savePcs_chc : (savePcs s).chc = s.chc := rfl
@[simp] theorem savePcs_rbp : (savePcs s).rbp = s.rbp := rfl
@[simp] theorem savePcs_tmc : (savePcs s).tmc = s.tmc := rfl
@[simp] theorem savePcs_tmr : (savePcs s).tmr = s.tmr := rfl
@[simp] theorem savePcs_pc0 : (savePcs s).pc0 = if s.fz then s.pc0 else s.npc := rfl
@[simp] theorem savePcs_pc1 : (savePcs s).pc1 = if s.fz then s.pc1 else s.pc := rfl
@[simp] theorem savePcs_pc2 : (savePcs s).pc2 = if s.fz then s.pc2 else s.prevPc := rfl
@[simp] theorem savePcs_ipa : (savePcs s).ipa = s.ipa := rfl
@[simp] theorem savePcs_ipb : (savePcs s).ipb = s.ipb := rfl
@[simp] theorem savePcs_ipc : (savePcs s).ipc = s.ipc := rfl
@[simp] theorem savePcs_q : (savePcs s).q = s.q := rfl
@[simp] theorem savePcs_alu : (savePcs s).alu = s.alu := rfl
@[simp] theorem savePcs_recent : (savePcs s).recent = s.recent := rfl
@[simp] theorem savePcs_fzSettle : (savePcs s).fzSettle = s.fzSettle := rfl
@[simp] theorem savePcs_chcMl : (savePcs s).chcMl = s.chcMl := rfl
@[simp] theorem savePcs_mode : (savePcs s).mode = s.mode := rfl
@[simp] theorem savePcs_warnLatch : (savePcs s).warnLatch = s.warnLatch := rfl
@[simp] theorem savePcs_warnSoon : (savePcs s).warnSoon = s.warnSoon := rfl
@[simp] theorem savePcs_flight : (savePcs s).flight = s.flight := rfl
@[simp] theorem savePcs_multiple : (savePcs s).multiple = s.multiple := rfl
@[simp] theorem savePcs_dbg : (savePcs s).dbg = s.dbg := rfl
@[simp] theorem savePcs_mem : (savePcs s).mem = s.mem := rfl
@[simp] theorem savePcs_romWritable : (savePcs s).romWritable = s.romWritable := rfl
@[simp] theorem savePcs_rmct : (savePcs s).rmct = s.rmct := rfl
@[simp] theorem savePcs_rmcf : (savePcs s).rmcf = s.rmcf := rfl
@[simp] theorem savePcs_drct : (savePcs s).drct = s.drct := rfl
@[simp] theorem savePcs_drcf : (savePcs s).drcf = s.drcf := rfl
@[simp] theorem savePcs_drm0 : (savePcs s).drm0 = s.drm0 := rfl
@[simp] theorem savePcs_drm1 : (savePcs s).drm1 = s.drm1 := rfl
@[simp] theorem savePcs_drm2 : (savePcs s).drm2 = s.drm2 := rfl
@[simp] theorem savePcs_drm3 : (savePcs s).drm3 = s.drm3 := rfl
@[simp] theorem savePcs_pict0 : (savePcs s).pict0 = s.pict0 := rfl
@[simp] theorem savePcs_pict1 : (savePcs s).pict1 = s.pict1 := rfl
@[simp] theorem savePcs_ict : (savePcs s).ict = s.ict := rfl
@[simp] theorem savePcs_dma0 : (savePcs s).dma0 = s.dma0 := rfl
@[simp] theorem savePcs_dma1 : (savePcs s).dma1 = s.dma1 := rfl
@[simp] theorem savePcs_tailAddr : (savePcs s).tailAddr = s.tailAddr := rfl
@[simp] theorem savePcs_tailCount : (savePcs s).tailCount = s.tailCount := rfl
@[simp] theorem savePcs_poct : (savePcs s).poct = s.poct := rfl
@[simp] theorem savePcs_pout : (savePcs s).pout = s.pout := rfl
@[simp] theorem savePcs_poen : (savePcs s).poen = s.poen := rfl
@[simp] theorem savePcs_pioSeen : (savePcs s).pioSeen = s.pioSeen := rfl
@[simp] theorem savePcs_pioAge : (savePcs s).pioAge = s.pioAge := rfl
@[simp] theorem savePcs_serial : (savePcs s).serial = s.serial := rfl
@[simp] theorem savePcs_pport : (savePcs s).pport = s.pport := rfl
@[simp] theorem savePcs_video : (savePcs s).video = s.video := rfl
@[simp] theorem savePcs_pins : (savePcs s).pins = s.pins := rfl
@[simp] theorem savePcs_schedule : (savePcs s).schedule = s.schedule := rfl
@[simp] theorem savePcs_outbox : (savePcs s).outbox = s.outbox := rfl
@[simp] theorem savePcs_free : (savePcs s).free = s.free := rfl

/-! ### openSaved -/

@[simp] theorem openSaved_variant : (openSaved s).variant = s.variant := rfl
@[simp] theorem openSaved_strap : (openSaved s).strap = s.strap := rfl
@[simp] theorem openSaved_pc : (openSaved s).pc = s.pc := rfl
@[simp] theorem openSaved_npc : (openSaved s).npc = s.npc := rfl
@[simp] theorem openSaved_prevPc : (openSaved s).prevPc = s.prevPc := rfl
@[simp] theorem openSaved_gr1 : (openSaved s).gr1 = s.gr1 := rfl
@[simp] theorem openSaved_shadow : (openSaved s).shadow = s.shadow := rfl
@[simp] theorem openSaved_gr : (openSaved s).gr = s.gr := rfl
@[simp] theorem openSaved_lr : (openSaved s).lr = s.lr := rfl
@[simp] theorem openSaved_vab : (openSaved s).vab = s.vab := rfl
@[simp] theorem openSaved_ops : (openSaved s).ops = s.ops := rfl
@[simp] theorem openSaved_cps : (openSaved s).cps = s.cps := rfl
@[simp] theorem openSaved_cha : (openSaved s).cha = s.freeWord 3 := rfl
@[simp] theorem openSaved_chd : (openSaved s).chd = s.freeWord 4 := rfl
@[simp] theorem openSaved_chc : (openSaved s).chc = s.freeWord 5 &&& chcMask := rfl
@[simp] theorem openSaved_rbp : (openSaved s).rbp = s.rbp := rfl
@[simp] theorem openSaved_tmc : (openSaved s).tmc = s.tmc := rfl
@[simp] theorem openSaved_tmr : (openSaved s).tmr = s.tmr := rfl
@[simp] theorem openSaved_pc0 : (openSaved s).pc0 = wordAligned (s.freeWord 0) := rfl
@[simp] theorem openSaved_pc1 : (openSaved s).pc1 = wordAligned (s.freeWord 1) := rfl
@[simp] theorem openSaved_pc2 : (openSaved s).pc2 = wordAligned (s.freeWord 2) := rfl
@[simp] theorem openSaved_ipa : (openSaved s).ipa = s.ipa := rfl
@[simp] theorem openSaved_ipb : (openSaved s).ipb = s.ipb := rfl
@[simp] theorem openSaved_ipc : (openSaved s).ipc = s.ipc := rfl
@[simp] theorem openSaved_q : (openSaved s).q = s.q := rfl
@[simp] theorem openSaved_alu : (openSaved s).alu = s.alu := rfl
@[simp] theorem openSaved_recent : (openSaved s).recent = s.recent := rfl
@[simp] theorem openSaved_fzSettle : (openSaved s).fzSettle = s.fzSettle := rfl
@[simp] theorem openSaved_chcMl : (openSaved s).chcMl = s.chcMl := rfl
@[simp] theorem openSaved_mode : (openSaved s).mode = s.mode := rfl
@[simp] theorem openSaved_warnLatch : (openSaved s).warnLatch = s.warnLatch := rfl
@[simp] theorem openSaved_warnSoon : (openSaved s).warnSoon = s.warnSoon := rfl
@[simp] theorem openSaved_flight : (openSaved s).flight = s.flight := rfl
@[simp] theorem openSaved_multiple : (openSaved s).multiple = s.multiple := rfl
@[simp] theorem openSaved_dbg : (openSaved s).dbg = s.dbg := rfl
@[simp] theorem openSaved_mem : (openSaved s).mem = s.mem := rfl
@[simp] theorem openSaved_romWritable : (openSaved s).romWritable = s.romWritable := rfl
@[simp] theorem openSaved_rmct : (openSaved s).rmct = s.rmct := rfl
@[simp] theorem openSaved_rmcf : (openSaved s).rmcf = s.rmcf := rfl
@[simp] theorem openSaved_drct : (openSaved s).drct = s.drct := rfl
@[simp] theorem openSaved_drcf : (openSaved s).drcf = s.drcf := rfl
@[simp] theorem openSaved_drm0 : (openSaved s).drm0 = s.drm0 := rfl
@[simp] theorem openSaved_drm1 : (openSaved s).drm1 = s.drm1 := rfl
@[simp] theorem openSaved_drm2 : (openSaved s).drm2 = s.drm2 := rfl
@[simp] theorem openSaved_drm3 : (openSaved s).drm3 = s.drm3 := rfl
@[simp] theorem openSaved_pict0 : (openSaved s).pict0 = s.pict0 := rfl
@[simp] theorem openSaved_pict1 : (openSaved s).pict1 = s.pict1 := rfl
@[simp] theorem openSaved_ict : (openSaved s).ict = s.ict := rfl
@[simp] theorem openSaved_dma0 : (openSaved s).dma0 = s.dma0 := rfl
@[simp] theorem openSaved_dma1 : (openSaved s).dma1 = s.dma1 := rfl
@[simp] theorem openSaved_tailAddr : (openSaved s).tailAddr = s.tailAddr := rfl
@[simp] theorem openSaved_tailCount : (openSaved s).tailCount = s.tailCount := rfl
@[simp] theorem openSaved_poct : (openSaved s).poct = s.poct := rfl
@[simp] theorem openSaved_pout : (openSaved s).pout = s.pout := rfl
@[simp] theorem openSaved_poen : (openSaved s).poen = s.poen := rfl
@[simp] theorem openSaved_pioSeen : (openSaved s).pioSeen = s.pioSeen := rfl
@[simp] theorem openSaved_pioAge : (openSaved s).pioAge = s.pioAge := rfl
@[simp] theorem openSaved_serial : (openSaved s).serial = s.serial := rfl
@[simp] theorem openSaved_pport : (openSaved s).pport = s.pport := rfl
@[simp] theorem openSaved_video : (openSaved s).video = s.video := rfl
@[simp] theorem openSaved_pins : (openSaved s).pins = s.pins := rfl
@[simp] theorem openSaved_schedule : (openSaved s).schedule = s.schedule := rfl
@[simp] theorem openSaved_outbox : (openSaved s).outbox = s.outbox := rfl
@[simp] theorem openSaved_free : (openSaved s).free = s.free + freeSlots := rfl

/-! ### setArithFlags -/

@[simp] theorem setArithFlags_variant (a : AddResult) (w : Word) : (s.setArithFlags a w).variant = s.variant := rfl
@[simp] theorem setArithFlags_strap (a : AddResult) (w : Word) : (s.setArithFlags a w).strap = s.strap := rfl
@[simp] theorem setArithFlags_pc (a : AddResult) (w : Word) : (s.setArithFlags a w).pc = s.pc := rfl
@[simp] theorem setArithFlags_npc (a : AddResult) (w : Word) : (s.setArithFlags a w).npc = s.npc := rfl
@[simp] theorem setArithFlags_prevPc (a : AddResult) (w : Word) : (s.setArithFlags a w).prevPc = s.prevPc := rfl
@[simp] theorem setArithFlags_gr1 (a : AddResult) (w : Word) : (s.setArithFlags a w).gr1 = s.gr1 := rfl
@[simp] theorem setArithFlags_shadow (a : AddResult) (w : Word) : (s.setArithFlags a w).shadow = s.shadow := rfl
@[simp] theorem setArithFlags_gr (a : AddResult) (w : Word) : (s.setArithFlags a w).gr = s.gr := rfl
@[simp] theorem setArithFlags_lr (a : AddResult) (w : Word) : (s.setArithFlags a w).lr = s.lr := rfl
@[simp] theorem setArithFlags_vab (a : AddResult) (w : Word) : (s.setArithFlags a w).vab = s.vab := rfl
@[simp] theorem setArithFlags_ops (a : AddResult) (w : Word) : (s.setArithFlags a w).ops = s.ops := rfl
@[simp] theorem setArithFlags_cps (a : AddResult) (w : Word) : (s.setArithFlags a w).cps = s.cps := rfl
@[simp] theorem setArithFlags_cha (a : AddResult) (w : Word) : (s.setArithFlags a w).cha = s.cha := rfl
@[simp] theorem setArithFlags_chd (a : AddResult) (w : Word) : (s.setArithFlags a w).chd = s.chd := rfl
@[simp] theorem setArithFlags_chc (a : AddResult) (w : Word) : (s.setArithFlags a w).chc = s.chc := rfl
@[simp] theorem setArithFlags_rbp (a : AddResult) (w : Word) : (s.setArithFlags a w).rbp = s.rbp := rfl
@[simp] theorem setArithFlags_tmc (a : AddResult) (w : Word) : (s.setArithFlags a w).tmc = s.tmc := rfl
@[simp] theorem setArithFlags_tmr (a : AddResult) (w : Word) : (s.setArithFlags a w).tmr = s.tmr := rfl
@[simp] theorem setArithFlags_pc0 (a : AddResult) (w : Word) : (s.setArithFlags a w).pc0 = s.pc0 := rfl
@[simp] theorem setArithFlags_pc1 (a : AddResult) (w : Word) : (s.setArithFlags a w).pc1 = s.pc1 := rfl
@[simp] theorem setArithFlags_pc2 (a : AddResult) (w : Word) : (s.setArithFlags a w).pc2 = s.pc2 := rfl
@[simp] theorem setArithFlags_ipa (a : AddResult) (w : Word) : (s.setArithFlags a w).ipa = s.ipa := rfl
@[simp] theorem setArithFlags_ipb (a : AddResult) (w : Word) : (s.setArithFlags a w).ipb = s.ipb := rfl
@[simp] theorem setArithFlags_ipc (a : AddResult) (w : Word) : (s.setArithFlags a w).ipc = s.ipc := rfl
@[simp] theorem setArithFlags_q (a : AddResult) (w : Word) : (s.setArithFlags a w).q = s.q := rfl
@[simp] theorem setArithFlags_alu (a : AddResult) (w : Word) : (s.setArithFlags a w).alu = if s.fz then s.alu else aluVNZC s.alu a.v (bit a.r 31) (w == 0) a.c := rfl
@[simp] theorem setArithFlags_recent (a : AddResult) (w : Word) : (s.setArithFlags a w).recent = s.recent := rfl
@[simp] theorem setArithFlags_fzSettle (a : AddResult) (w : Word) : (s.setArithFlags a w).fzSettle = s.fzSettle := rfl
@[simp] theorem setArithFlags_chcMl (a : AddResult) (w : Word) : (s.setArithFlags a w).chcMl = s.chcMl := rfl
@[simp] theorem setArithFlags_mode (a : AddResult) (w : Word) : (s.setArithFlags a w).mode = s.mode := rfl
@[simp] theorem setArithFlags_warnLatch (a : AddResult) (w : Word) : (s.setArithFlags a w).warnLatch = s.warnLatch := rfl
@[simp] theorem setArithFlags_warnSoon (a : AddResult) (w : Word) : (s.setArithFlags a w).warnSoon = s.warnSoon := rfl
@[simp] theorem setArithFlags_flight (a : AddResult) (w : Word) : (s.setArithFlags a w).flight = s.flight := rfl
@[simp] theorem setArithFlags_multiple (a : AddResult) (w : Word) : (s.setArithFlags a w).multiple = s.multiple := rfl
@[simp] theorem setArithFlags_dbg (a : AddResult) (w : Word) : (s.setArithFlags a w).dbg = s.dbg := rfl
@[simp] theorem setArithFlags_mem (a : AddResult) (w : Word) : (s.setArithFlags a w).mem = s.mem := rfl
@[simp] theorem setArithFlags_romWritable (a : AddResult) (w : Word) : (s.setArithFlags a w).romWritable = s.romWritable := rfl
@[simp] theorem setArithFlags_rmct (a : AddResult) (w : Word) : (s.setArithFlags a w).rmct = s.rmct := rfl
@[simp] theorem setArithFlags_rmcf (a : AddResult) (w : Word) : (s.setArithFlags a w).rmcf = s.rmcf := rfl
@[simp] theorem setArithFlags_drct (a : AddResult) (w : Word) : (s.setArithFlags a w).drct = s.drct := rfl
@[simp] theorem setArithFlags_drcf (a : AddResult) (w : Word) : (s.setArithFlags a w).drcf = s.drcf := rfl
@[simp] theorem setArithFlags_drm0 (a : AddResult) (w : Word) : (s.setArithFlags a w).drm0 = s.drm0 := rfl
@[simp] theorem setArithFlags_drm1 (a : AddResult) (w : Word) : (s.setArithFlags a w).drm1 = s.drm1 := rfl
@[simp] theorem setArithFlags_drm2 (a : AddResult) (w : Word) : (s.setArithFlags a w).drm2 = s.drm2 := rfl
@[simp] theorem setArithFlags_drm3 (a : AddResult) (w : Word) : (s.setArithFlags a w).drm3 = s.drm3 := rfl
@[simp] theorem setArithFlags_pict0 (a : AddResult) (w : Word) : (s.setArithFlags a w).pict0 = s.pict0 := rfl
@[simp] theorem setArithFlags_pict1 (a : AddResult) (w : Word) : (s.setArithFlags a w).pict1 = s.pict1 := rfl
@[simp] theorem setArithFlags_ict (a : AddResult) (w : Word) : (s.setArithFlags a w).ict = s.ict := rfl
@[simp] theorem setArithFlags_dma0 (a : AddResult) (w : Word) : (s.setArithFlags a w).dma0 = s.dma0 := rfl
@[simp] theorem setArithFlags_dma1 (a : AddResult) (w : Word) : (s.setArithFlags a w).dma1 = s.dma1 := rfl
@[simp] theorem setArithFlags_tailAddr (a : AddResult) (w : Word) : (s.setArithFlags a w).tailAddr = s.tailAddr := rfl
@[simp] theorem setArithFlags_tailCount (a : AddResult) (w : Word) : (s.setArithFlags a w).tailCount = s.tailCount := rfl
@[simp] theorem setArithFlags_poct (a : AddResult) (w : Word) : (s.setArithFlags a w).poct = s.poct := rfl
@[simp] theorem setArithFlags_pout (a : AddResult) (w : Word) : (s.setArithFlags a w).pout = s.pout := rfl
@[simp] theorem setArithFlags_poen (a : AddResult) (w : Word) : (s.setArithFlags a w).poen = s.poen := rfl
@[simp] theorem setArithFlags_pioSeen (a : AddResult) (w : Word) : (s.setArithFlags a w).pioSeen = s.pioSeen := rfl
@[simp] theorem setArithFlags_pioAge (a : AddResult) (w : Word) : (s.setArithFlags a w).pioAge = s.pioAge := rfl
@[simp] theorem setArithFlags_serial (a : AddResult) (w : Word) : (s.setArithFlags a w).serial = s.serial := rfl
@[simp] theorem setArithFlags_pport (a : AddResult) (w : Word) : (s.setArithFlags a w).pport = s.pport := rfl
@[simp] theorem setArithFlags_video (a : AddResult) (w : Word) : (s.setArithFlags a w).video = s.video := rfl
@[simp] theorem setArithFlags_pins (a : AddResult) (w : Word) : (s.setArithFlags a w).pins = s.pins := rfl
@[simp] theorem setArithFlags_schedule (a : AddResult) (w : Word) : (s.setArithFlags a w).schedule = s.schedule := rfl
@[simp] theorem setArithFlags_outbox (a : AddResult) (w : Word) : (s.setArithFlags a w).outbox = s.outbox := rfl
@[simp] theorem setArithFlags_free (a : AddResult) (w : Word) : (s.setArithFlags a w).free = s.free := rfl

/-! ### setLogicFlags -/

@[simp] theorem setLogicFlags_variant (w : Word) : (s.setLogicFlags w).variant = s.variant := rfl
@[simp] theorem setLogicFlags_strap (w : Word) : (s.setLogicFlags w).strap = s.strap := rfl
@[simp] theorem setLogicFlags_pc (w : Word) : (s.setLogicFlags w).pc = s.pc := rfl
@[simp] theorem setLogicFlags_npc (w : Word) : (s.setLogicFlags w).npc = s.npc := rfl
@[simp] theorem setLogicFlags_prevPc (w : Word) : (s.setLogicFlags w).prevPc = s.prevPc := rfl
@[simp] theorem setLogicFlags_gr1 (w : Word) : (s.setLogicFlags w).gr1 = s.gr1 := rfl
@[simp] theorem setLogicFlags_shadow (w : Word) : (s.setLogicFlags w).shadow = s.shadow := rfl
@[simp] theorem setLogicFlags_gr (w : Word) : (s.setLogicFlags w).gr = s.gr := rfl
@[simp] theorem setLogicFlags_lr (w : Word) : (s.setLogicFlags w).lr = s.lr := rfl
@[simp] theorem setLogicFlags_vab (w : Word) : (s.setLogicFlags w).vab = s.vab := rfl
@[simp] theorem setLogicFlags_ops (w : Word) : (s.setLogicFlags w).ops = s.ops := rfl
@[simp] theorem setLogicFlags_cps (w : Word) : (s.setLogicFlags w).cps = s.cps := rfl
@[simp] theorem setLogicFlags_cha (w : Word) : (s.setLogicFlags w).cha = s.cha := rfl
@[simp] theorem setLogicFlags_chd (w : Word) : (s.setLogicFlags w).chd = s.chd := rfl
@[simp] theorem setLogicFlags_chc (w : Word) : (s.setLogicFlags w).chc = s.chc := rfl
@[simp] theorem setLogicFlags_rbp (w : Word) : (s.setLogicFlags w).rbp = s.rbp := rfl
@[simp] theorem setLogicFlags_tmc (w : Word) : (s.setLogicFlags w).tmc = s.tmc := rfl
@[simp] theorem setLogicFlags_tmr (w : Word) : (s.setLogicFlags w).tmr = s.tmr := rfl
@[simp] theorem setLogicFlags_pc0 (w : Word) : (s.setLogicFlags w).pc0 = s.pc0 := rfl
@[simp] theorem setLogicFlags_pc1 (w : Word) : (s.setLogicFlags w).pc1 = s.pc1 := rfl
@[simp] theorem setLogicFlags_pc2 (w : Word) : (s.setLogicFlags w).pc2 = s.pc2 := rfl
@[simp] theorem setLogicFlags_ipa (w : Word) : (s.setLogicFlags w).ipa = s.ipa := rfl
@[simp] theorem setLogicFlags_ipb (w : Word) : (s.setLogicFlags w).ipb = s.ipb := rfl
@[simp] theorem setLogicFlags_ipc (w : Word) : (s.setLogicFlags w).ipc = s.ipc := rfl
@[simp] theorem setLogicFlags_q (w : Word) : (s.setLogicFlags w).q = s.q := rfl
@[simp] theorem setLogicFlags_alu (w : Word) : (s.setLogicFlags w).alu = if s.fz then s.alu else putBit (putBit s.alu 9 (bit w 31)) 8 (w == 0) := rfl
@[simp] theorem setLogicFlags_recent (w : Word) : (s.setLogicFlags w).recent = s.recent := rfl
@[simp] theorem setLogicFlags_fzSettle (w : Word) : (s.setLogicFlags w).fzSettle = s.fzSettle := rfl
@[simp] theorem setLogicFlags_chcMl (w : Word) : (s.setLogicFlags w).chcMl = s.chcMl := rfl
@[simp] theorem setLogicFlags_mode (w : Word) : (s.setLogicFlags w).mode = s.mode := rfl
@[simp] theorem setLogicFlags_warnLatch (w : Word) : (s.setLogicFlags w).warnLatch = s.warnLatch := rfl
@[simp] theorem setLogicFlags_warnSoon (w : Word) : (s.setLogicFlags w).warnSoon = s.warnSoon := rfl
@[simp] theorem setLogicFlags_flight (w : Word) : (s.setLogicFlags w).flight = s.flight := rfl
@[simp] theorem setLogicFlags_multiple (w : Word) : (s.setLogicFlags w).multiple = s.multiple := rfl
@[simp] theorem setLogicFlags_dbg (w : Word) : (s.setLogicFlags w).dbg = s.dbg := rfl
@[simp] theorem setLogicFlags_mem (w : Word) : (s.setLogicFlags w).mem = s.mem := rfl
@[simp] theorem setLogicFlags_romWritable (w : Word) : (s.setLogicFlags w).romWritable = s.romWritable := rfl
@[simp] theorem setLogicFlags_rmct (w : Word) : (s.setLogicFlags w).rmct = s.rmct := rfl
@[simp] theorem setLogicFlags_rmcf (w : Word) : (s.setLogicFlags w).rmcf = s.rmcf := rfl
@[simp] theorem setLogicFlags_drct (w : Word) : (s.setLogicFlags w).drct = s.drct := rfl
@[simp] theorem setLogicFlags_drcf (w : Word) : (s.setLogicFlags w).drcf = s.drcf := rfl
@[simp] theorem setLogicFlags_drm0 (w : Word) : (s.setLogicFlags w).drm0 = s.drm0 := rfl
@[simp] theorem setLogicFlags_drm1 (w : Word) : (s.setLogicFlags w).drm1 = s.drm1 := rfl
@[simp] theorem setLogicFlags_drm2 (w : Word) : (s.setLogicFlags w).drm2 = s.drm2 := rfl
@[simp] theorem setLogicFlags_drm3 (w : Word) : (s.setLogicFlags w).drm3 = s.drm3 := rfl
@[simp] theorem setLogicFlags_pict0 (w : Word) : (s.setLogicFlags w).pict0 = s.pict0 := rfl
@[simp] theorem setLogicFlags_pict1 (w : Word) : (s.setLogicFlags w).pict1 = s.pict1 := rfl
@[simp] theorem setLogicFlags_ict (w : Word) : (s.setLogicFlags w).ict = s.ict := rfl
@[simp] theorem setLogicFlags_dma0 (w : Word) : (s.setLogicFlags w).dma0 = s.dma0 := rfl
@[simp] theorem setLogicFlags_dma1 (w : Word) : (s.setLogicFlags w).dma1 = s.dma1 := rfl
@[simp] theorem setLogicFlags_tailAddr (w : Word) : (s.setLogicFlags w).tailAddr = s.tailAddr := rfl
@[simp] theorem setLogicFlags_tailCount (w : Word) : (s.setLogicFlags w).tailCount = s.tailCount := rfl
@[simp] theorem setLogicFlags_poct (w : Word) : (s.setLogicFlags w).poct = s.poct := rfl
@[simp] theorem setLogicFlags_pout (w : Word) : (s.setLogicFlags w).pout = s.pout := rfl
@[simp] theorem setLogicFlags_poen (w : Word) : (s.setLogicFlags w).poen = s.poen := rfl
@[simp] theorem setLogicFlags_pioSeen (w : Word) : (s.setLogicFlags w).pioSeen = s.pioSeen := rfl
@[simp] theorem setLogicFlags_pioAge (w : Word) : (s.setLogicFlags w).pioAge = s.pioAge := rfl
@[simp] theorem setLogicFlags_serial (w : Word) : (s.setLogicFlags w).serial = s.serial := rfl
@[simp] theorem setLogicFlags_pport (w : Word) : (s.setLogicFlags w).pport = s.pport := rfl
@[simp] theorem setLogicFlags_video (w : Word) : (s.setLogicFlags w).video = s.video := rfl
@[simp] theorem setLogicFlags_pins (w : Word) : (s.setLogicFlags w).pins = s.pins := rfl
@[simp] theorem setLogicFlags_schedule (w : Word) : (s.setLogicFlags w).schedule = s.schedule := rfl
@[simp] theorem setLogicFlags_outbox (w : Word) : (s.setLogicFlags w).outbox = s.outbox := rfl
@[simp] theorem setLogicFlags_free (w : Word) : (s.setLogicFlags w).free = s.free := rfl

/-! ### setDf -/

@[simp] theorem setDf_variant (b : Bool) : (s.setDf b).variant = s.variant := rfl
@[simp] theorem setDf_strap (b : Bool) : (s.setDf b).strap = s.strap := rfl
@[simp] theorem setDf_pc (b : Bool) : (s.setDf b).pc = s.pc := rfl
@[simp] theorem setDf_npc (b : Bool) : (s.setDf b).npc = s.npc := rfl
@[simp] theorem setDf_prevPc (b : Bool) : (s.setDf b).prevPc = s.prevPc := rfl
@[simp] theorem setDf_gr1 (b : Bool) : (s.setDf b).gr1 = s.gr1 := rfl
@[simp] theorem setDf_shadow (b : Bool) : (s.setDf b).shadow = s.shadow := rfl
@[simp] theorem setDf_gr (b : Bool) : (s.setDf b).gr = s.gr := rfl
@[simp] theorem setDf_lr (b : Bool) : (s.setDf b).lr = s.lr := rfl
@[simp] theorem setDf_vab (b : Bool) : (s.setDf b).vab = s.vab := rfl
@[simp] theorem setDf_ops (b : Bool) : (s.setDf b).ops = s.ops := rfl
@[simp] theorem setDf_cps (b : Bool) : (s.setDf b).cps = s.cps := rfl
@[simp] theorem setDf_cha (b : Bool) : (s.setDf b).cha = s.cha := rfl
@[simp] theorem setDf_chd (b : Bool) : (s.setDf b).chd = s.chd := rfl
@[simp] theorem setDf_chc (b : Bool) : (s.setDf b).chc = s.chc := rfl
@[simp] theorem setDf_rbp (b : Bool) : (s.setDf b).rbp = s.rbp := rfl
@[simp] theorem setDf_tmc (b : Bool) : (s.setDf b).tmc = s.tmc := rfl
@[simp] theorem setDf_tmr (b : Bool) : (s.setDf b).tmr = s.tmr := rfl
@[simp] theorem setDf_pc0 (b : Bool) : (s.setDf b).pc0 = s.pc0 := rfl
@[simp] theorem setDf_pc1 (b : Bool) : (s.setDf b).pc1 = s.pc1 := rfl
@[simp] theorem setDf_pc2 (b : Bool) : (s.setDf b).pc2 = s.pc2 := rfl
@[simp] theorem setDf_ipa (b : Bool) : (s.setDf b).ipa = s.ipa := rfl
@[simp] theorem setDf_ipb (b : Bool) : (s.setDf b).ipb = s.ipb := rfl
@[simp] theorem setDf_ipc (b : Bool) : (s.setDf b).ipc = s.ipc := rfl
@[simp] theorem setDf_q (b : Bool) : (s.setDf b).q = s.q := rfl
@[simp] theorem setDf_alu (b : Bool) : (s.setDf b).alu = if s.fz then s.alu else putBit s.alu 11 b := rfl
@[simp] theorem setDf_recent (b : Bool) : (s.setDf b).recent = s.recent := rfl
@[simp] theorem setDf_fzSettle (b : Bool) : (s.setDf b).fzSettle = s.fzSettle := rfl
@[simp] theorem setDf_chcMl (b : Bool) : (s.setDf b).chcMl = s.chcMl := rfl
@[simp] theorem setDf_mode (b : Bool) : (s.setDf b).mode = s.mode := rfl
@[simp] theorem setDf_warnLatch (b : Bool) : (s.setDf b).warnLatch = s.warnLatch := rfl
@[simp] theorem setDf_warnSoon (b : Bool) : (s.setDf b).warnSoon = s.warnSoon := rfl
@[simp] theorem setDf_flight (b : Bool) : (s.setDf b).flight = s.flight := rfl
@[simp] theorem setDf_multiple (b : Bool) : (s.setDf b).multiple = s.multiple := rfl
@[simp] theorem setDf_dbg (b : Bool) : (s.setDf b).dbg = s.dbg := rfl
@[simp] theorem setDf_mem (b : Bool) : (s.setDf b).mem = s.mem := rfl
@[simp] theorem setDf_romWritable (b : Bool) : (s.setDf b).romWritable = s.romWritable := rfl
@[simp] theorem setDf_rmct (b : Bool) : (s.setDf b).rmct = s.rmct := rfl
@[simp] theorem setDf_rmcf (b : Bool) : (s.setDf b).rmcf = s.rmcf := rfl
@[simp] theorem setDf_drct (b : Bool) : (s.setDf b).drct = s.drct := rfl
@[simp] theorem setDf_drcf (b : Bool) : (s.setDf b).drcf = s.drcf := rfl
@[simp] theorem setDf_drm0 (b : Bool) : (s.setDf b).drm0 = s.drm0 := rfl
@[simp] theorem setDf_drm1 (b : Bool) : (s.setDf b).drm1 = s.drm1 := rfl
@[simp] theorem setDf_drm2 (b : Bool) : (s.setDf b).drm2 = s.drm2 := rfl
@[simp] theorem setDf_drm3 (b : Bool) : (s.setDf b).drm3 = s.drm3 := rfl
@[simp] theorem setDf_pict0 (b : Bool) : (s.setDf b).pict0 = s.pict0 := rfl
@[simp] theorem setDf_pict1 (b : Bool) : (s.setDf b).pict1 = s.pict1 := rfl
@[simp] theorem setDf_ict (b : Bool) : (s.setDf b).ict = s.ict := rfl
@[simp] theorem setDf_dma0 (b : Bool) : (s.setDf b).dma0 = s.dma0 := rfl
@[simp] theorem setDf_dma1 (b : Bool) : (s.setDf b).dma1 = s.dma1 := rfl
@[simp] theorem setDf_tailAddr (b : Bool) : (s.setDf b).tailAddr = s.tailAddr := rfl
@[simp] theorem setDf_tailCount (b : Bool) : (s.setDf b).tailCount = s.tailCount := rfl
@[simp] theorem setDf_poct (b : Bool) : (s.setDf b).poct = s.poct := rfl
@[simp] theorem setDf_pout (b : Bool) : (s.setDf b).pout = s.pout := rfl
@[simp] theorem setDf_poen (b : Bool) : (s.setDf b).poen = s.poen := rfl
@[simp] theorem setDf_pioSeen (b : Bool) : (s.setDf b).pioSeen = s.pioSeen := rfl
@[simp] theorem setDf_pioAge (b : Bool) : (s.setDf b).pioAge = s.pioAge := rfl
@[simp] theorem setDf_serial (b : Bool) : (s.setDf b).serial = s.serial := rfl
@[simp] theorem setDf_pport (b : Bool) : (s.setDf b).pport = s.pport := rfl
@[simp] theorem setDf_video (b : Bool) : (s.setDf b).video = s.video := rfl
@[simp] theorem setDf_pins (b : Bool) : (s.setDf b).pins = s.pins := rfl
@[simp] theorem setDf_schedule (b : Bool) : (s.setDf b).schedule = s.schedule := rfl
@[simp] theorem setDf_outbox (b : Bool) : (s.setDf b).outbox = s.outbox := rfl
@[simp] theorem setDf_free (b : Bool) : (s.setDf b).free = s.free := rfl

/-! ### setBp -/

@[simp] theorem setBp_variant (b : Bool) : (s.setBp b).variant = s.variant := rfl
@[simp] theorem setBp_strap (b : Bool) : (s.setBp b).strap = s.strap := rfl
@[simp] theorem setBp_pc (b : Bool) : (s.setBp b).pc = s.pc := rfl
@[simp] theorem setBp_npc (b : Bool) : (s.setBp b).npc = s.npc := rfl
@[simp] theorem setBp_prevPc (b : Bool) : (s.setBp b).prevPc = s.prevPc := rfl
@[simp] theorem setBp_gr1 (b : Bool) : (s.setBp b).gr1 = s.gr1 := rfl
@[simp] theorem setBp_shadow (b : Bool) : (s.setBp b).shadow = s.shadow := rfl
@[simp] theorem setBp_gr (b : Bool) : (s.setBp b).gr = s.gr := rfl
@[simp] theorem setBp_lr (b : Bool) : (s.setBp b).lr = s.lr := rfl
@[simp] theorem setBp_vab (b : Bool) : (s.setBp b).vab = s.vab := rfl
@[simp] theorem setBp_ops (b : Bool) : (s.setBp b).ops = s.ops := rfl
@[simp] theorem setBp_cps (b : Bool) : (s.setBp b).cps = s.cps := rfl
@[simp] theorem setBp_cha (b : Bool) : (s.setBp b).cha = s.cha := rfl
@[simp] theorem setBp_chd (b : Bool) : (s.setBp b).chd = s.chd := rfl
@[simp] theorem setBp_chc (b : Bool) : (s.setBp b).chc = s.chc := rfl
@[simp] theorem setBp_rbp (b : Bool) : (s.setBp b).rbp = s.rbp := rfl
@[simp] theorem setBp_tmc (b : Bool) : (s.setBp b).tmc = s.tmc := rfl
@[simp] theorem setBp_tmr (b : Bool) : (s.setBp b).tmr = s.tmr := rfl
@[simp] theorem setBp_pc0 (b : Bool) : (s.setBp b).pc0 = s.pc0 := rfl
@[simp] theorem setBp_pc1 (b : Bool) : (s.setBp b).pc1 = s.pc1 := rfl
@[simp] theorem setBp_pc2 (b : Bool) : (s.setBp b).pc2 = s.pc2 := rfl
@[simp] theorem setBp_ipa (b : Bool) : (s.setBp b).ipa = s.ipa := rfl
@[simp] theorem setBp_ipb (b : Bool) : (s.setBp b).ipb = s.ipb := rfl
@[simp] theorem setBp_ipc (b : Bool) : (s.setBp b).ipc = s.ipc := rfl
@[simp] theorem setBp_q (b : Bool) : (s.setBp b).q = s.q := rfl
@[simp] theorem setBp_alu (b : Bool) : (s.setBp b).alu = if b && !s.fz then putBits s.alu 5 3#2 else s.alu := rfl
@[simp] theorem setBp_recent (b : Bool) : (s.setBp b).recent = s.recent := rfl
@[simp] theorem setBp_fzSettle (b : Bool) : (s.setBp b).fzSettle = s.fzSettle := rfl
@[simp] theorem setBp_chcMl (b : Bool) : (s.setBp b).chcMl = s.chcMl := rfl
@[simp] theorem setBp_mode (b : Bool) : (s.setBp b).mode = s.mode := rfl
@[simp] theorem setBp_warnLatch (b : Bool) : (s.setBp b).warnLatch = s.warnLatch := rfl
@[simp] theorem setBp_warnSoon (b : Bool) : (s.setBp b).warnSoon = s.warnSoon := rfl
@[simp] theorem setBp_flight (b : Bool) : (s.setBp b).flight = s.flight := rfl
@[simp] theorem setBp_multiple (b : Bool) : (s.setBp b).multiple = s.multiple := rfl
@[simp] theorem setBp_dbg (b : Bool) : (s.setBp b).dbg = s.dbg := rfl
@[simp] theorem setBp_mem (b : Bool) : (s.setBp b).mem = s.mem := rfl
@[simp] theorem setBp_romWritable (b : Bool) : (s.setBp b).romWritable = s.romWritable := rfl
@[simp] theorem setBp_rmct (b : Bool) : (s.setBp b).rmct = s.rmct := rfl
@[simp] theorem setBp_rmcf (b : Bool) : (s.setBp b).rmcf = s.rmcf := rfl
@[simp] theorem setBp_drct (b : Bool) : (s.setBp b).drct = s.drct := rfl
@[simp] theorem setBp_drcf (b : Bool) : (s.setBp b).drcf = s.drcf := rfl
@[simp] theorem setBp_drm0 (b : Bool) : (s.setBp b).drm0 = s.drm0 := rfl
@[simp] theorem setBp_drm1 (b : Bool) : (s.setBp b).drm1 = s.drm1 := rfl
@[simp] theorem setBp_drm2 (b : Bool) : (s.setBp b).drm2 = s.drm2 := rfl
@[simp] theorem setBp_drm3 (b : Bool) : (s.setBp b).drm3 = s.drm3 := rfl
@[simp] theorem setBp_pict0 (b : Bool) : (s.setBp b).pict0 = s.pict0 := rfl
@[simp] theorem setBp_pict1 (b : Bool) : (s.setBp b).pict1 = s.pict1 := rfl
@[simp] theorem setBp_ict (b : Bool) : (s.setBp b).ict = s.ict := rfl
@[simp] theorem setBp_dma0 (b : Bool) : (s.setBp b).dma0 = s.dma0 := rfl
@[simp] theorem setBp_dma1 (b : Bool) : (s.setBp b).dma1 = s.dma1 := rfl
@[simp] theorem setBp_tailAddr (b : Bool) : (s.setBp b).tailAddr = s.tailAddr := rfl
@[simp] theorem setBp_tailCount (b : Bool) : (s.setBp b).tailCount = s.tailCount := rfl
@[simp] theorem setBp_poct (b : Bool) : (s.setBp b).poct = s.poct := rfl
@[simp] theorem setBp_pout (b : Bool) : (s.setBp b).pout = s.pout := rfl
@[simp] theorem setBp_poen (b : Bool) : (s.setBp b).poen = s.poen := rfl
@[simp] theorem setBp_pioSeen (b : Bool) : (s.setBp b).pioSeen = s.pioSeen := rfl
@[simp] theorem setBp_pioAge (b : Bool) : (s.setBp b).pioAge = s.pioAge := rfl
@[simp] theorem setBp_serial (b : Bool) : (s.setBp b).serial = s.serial := rfl
@[simp] theorem setBp_pport (b : Bool) : (s.setBp b).pport = s.pport := rfl
@[simp] theorem setBp_video (b : Bool) : (s.setBp b).video = s.video := rfl
@[simp] theorem setBp_pins (b : Bool) : (s.setBp b).pins = s.pins := rfl
@[simp] theorem setBp_schedule (b : Bool) : (s.setBp b).schedule = s.schedule := rfl
@[simp] theorem setBp_outbox (b : Bool) : (s.setBp b).outbox = s.outbox := rfl
@[simp] theorem setBp_free (b : Bool) : (s.setBp b).free = s.free := rfl

/-! ### setDiv0Flags -/

@[simp] theorem setDiv0Flags_variant (y d : Word) : (s.setDiv0Flags y d).variant = s.variant := rfl
@[simp] theorem setDiv0Flags_strap (y d : Word) : (s.setDiv0Flags y d).strap = s.strap := rfl
@[simp] theorem setDiv0Flags_pc (y d : Word) : (s.setDiv0Flags y d).pc = s.pc := rfl
@[simp] theorem setDiv0Flags_npc (y d : Word) : (s.setDiv0Flags y d).npc = s.npc := rfl
@[simp] theorem setDiv0Flags_prevPc (y d : Word) : (s.setDiv0Flags y d).prevPc = s.prevPc := rfl
@[simp] theorem setDiv0Flags_gr1 (y d : Word) : (s.setDiv0Flags y d).gr1 = s.gr1 := rfl
@[simp] theorem setDiv0Flags_shadow (y d : Word) : (s.setDiv0Flags y d).shadow = s.shadow := rfl
@[simp] theorem setDiv0Flags_gr (y d : Word) : (s.setDiv0Flags y d).gr = s.gr := rfl
@[simp] theorem setDiv0Flags_lr (y d : Word) : (s.setDiv0Flags y d).lr = s.lr := rfl
@[simp] theorem setDiv0Flags_vab (y d : Word) : (s.setDiv0Flags y d).vab = s.vab := rfl
@[simp] theorem setDiv0Flags_ops (y d : Word) : (s.setDiv0Flags y d).ops = s.ops := rfl
@[simp] theorem setDiv0Flags_cps (y d : Word) : (s.setDiv0Flags y d).cps = s.cps := rfl
@[simp] theorem setDiv0Flags_cha (y d : Word) : (s.setDiv0Flags y d).cha = s.cha := rfl
@[simp] theorem setDiv0Flags_chd (y d : Word) : (s.setDiv0Flags y d).chd = s.chd := rfl
@[simp] theorem setDiv0Flags_chc (y d : Word) : (s.setDiv0Flags y d).chc = s.chc := rfl
@[simp] theorem setDiv0Flags_rbp (y d : Word) : (s.setDiv0Flags y d).rbp = s.rbp := rfl
@[simp] theorem setDiv0Flags_tmc (y d : Word) : (s.setDiv0Flags y d).tmc = s.tmc := rfl
@[simp] theorem setDiv0Flags_tmr (y d : Word) : (s.setDiv0Flags y d).tmr = s.tmr := rfl
@[simp] theorem setDiv0Flags_pc0 (y d : Word) : (s.setDiv0Flags y d).pc0 = s.pc0 := rfl
@[simp] theorem setDiv0Flags_pc1 (y d : Word) : (s.setDiv0Flags y d).pc1 = s.pc1 := rfl
@[simp] theorem setDiv0Flags_pc2 (y d : Word) : (s.setDiv0Flags y d).pc2 = s.pc2 := rfl
@[simp] theorem setDiv0Flags_ipa (y d : Word) : (s.setDiv0Flags y d).ipa = s.ipa := rfl
@[simp] theorem setDiv0Flags_ipb (y d : Word) : (s.setDiv0Flags y d).ipb = s.ipb := rfl
@[simp] theorem setDiv0Flags_ipc (y d : Word) : (s.setDiv0Flags y d).ipc = s.ipc := rfl
@[simp] theorem setDiv0Flags_q (y d : Word) : (s.setDiv0Flags y d).q = s.q := rfl
@[simp] theorem setDiv0Flags_alu (y d : Word) : (s.setDiv0Flags y d).alu = if s.fz then s.alu else putBit (aluVNZC s.alu false (bit y 31) (d == 0) false) 11 true := rfl
@[simp] theorem setDiv0Flags_recent (y d : Word) : (s.setDiv0Flags y d).recent = s.recent := rfl
@[simp] theorem setDiv0Flags_fzSettle (y d : Word) : (s.setDiv0Flags y d).fzSettle = s.fzSettle := rfl
@[simp] theorem setDiv0Flags_chcMl (y d : Word) : (s.setDiv0Flags y d).chcMl = s.chcMl := rfl
@[simp] theorem setDiv0Flags_mode (y d : Word) : (s.setDiv0Flags y d).mode = s.mode := rfl
@[simp] theorem setDiv0Flags_warnLatch (y d : Word) : (s.setDiv0Flags y d).warnLatch = s.warnLatch := rfl
@[simp] theorem setDiv0Flags_warnSoon (y d : Word) : (s.setDiv0Flags y d).warnSoon = s.warnSoon := rfl
@[simp] theorem setDiv0Flags_flight (y d : Word) : (s.setDiv0Flags y d).flight = s.flight := rfl
@[simp] theorem setDiv0Flags_multiple (y d : Word) : (s.setDiv0Flags y d).multiple = s.multiple := rfl
@[simp] theorem setDiv0Flags_dbg (y d : Word) : (s.setDiv0Flags y d).dbg = s.dbg := rfl
@[simp] theorem setDiv0Flags_mem (y d : Word) : (s.setDiv0Flags y d).mem = s.mem := rfl
@[simp] theorem setDiv0Flags_romWritable (y d : Word) : (s.setDiv0Flags y d).romWritable = s.romWritable := rfl
@[simp] theorem setDiv0Flags_rmct (y d : Word) : (s.setDiv0Flags y d).rmct = s.rmct := rfl
@[simp] theorem setDiv0Flags_rmcf (y d : Word) : (s.setDiv0Flags y d).rmcf = s.rmcf := rfl
@[simp] theorem setDiv0Flags_drct (y d : Word) : (s.setDiv0Flags y d).drct = s.drct := rfl
@[simp] theorem setDiv0Flags_drcf (y d : Word) : (s.setDiv0Flags y d).drcf = s.drcf := rfl
@[simp] theorem setDiv0Flags_drm0 (y d : Word) : (s.setDiv0Flags y d).drm0 = s.drm0 := rfl
@[simp] theorem setDiv0Flags_drm1 (y d : Word) : (s.setDiv0Flags y d).drm1 = s.drm1 := rfl
@[simp] theorem setDiv0Flags_drm2 (y d : Word) : (s.setDiv0Flags y d).drm2 = s.drm2 := rfl
@[simp] theorem setDiv0Flags_drm3 (y d : Word) : (s.setDiv0Flags y d).drm3 = s.drm3 := rfl
@[simp] theorem setDiv0Flags_pict0 (y d : Word) : (s.setDiv0Flags y d).pict0 = s.pict0 := rfl
@[simp] theorem setDiv0Flags_pict1 (y d : Word) : (s.setDiv0Flags y d).pict1 = s.pict1 := rfl
@[simp] theorem setDiv0Flags_ict (y d : Word) : (s.setDiv0Flags y d).ict = s.ict := rfl
@[simp] theorem setDiv0Flags_dma0 (y d : Word) : (s.setDiv0Flags y d).dma0 = s.dma0 := rfl
@[simp] theorem setDiv0Flags_dma1 (y d : Word) : (s.setDiv0Flags y d).dma1 = s.dma1 := rfl
@[simp] theorem setDiv0Flags_tailAddr (y d : Word) : (s.setDiv0Flags y d).tailAddr = s.tailAddr := rfl
@[simp] theorem setDiv0Flags_tailCount (y d : Word) : (s.setDiv0Flags y d).tailCount = s.tailCount := rfl
@[simp] theorem setDiv0Flags_poct (y d : Word) : (s.setDiv0Flags y d).poct = s.poct := rfl
@[simp] theorem setDiv0Flags_pout (y d : Word) : (s.setDiv0Flags y d).pout = s.pout := rfl
@[simp] theorem setDiv0Flags_poen (y d : Word) : (s.setDiv0Flags y d).poen = s.poen := rfl
@[simp] theorem setDiv0Flags_pioSeen (y d : Word) : (s.setDiv0Flags y d).pioSeen = s.pioSeen := rfl
@[simp] theorem setDiv0Flags_pioAge (y d : Word) : (s.setDiv0Flags y d).pioAge = s.pioAge := rfl
@[simp] theorem setDiv0Flags_serial (y d : Word) : (s.setDiv0Flags y d).serial = s.serial := rfl
@[simp] theorem setDiv0Flags_pport (y d : Word) : (s.setDiv0Flags y d).pport = s.pport := rfl
@[simp] theorem setDiv0Flags_video (y d : Word) : (s.setDiv0Flags y d).video = s.video := rfl
@[simp] theorem setDiv0Flags_pins (y d : Word) : (s.setDiv0Flags y d).pins = s.pins := rfl
@[simp] theorem setDiv0Flags_schedule (y d : Word) : (s.setDiv0Flags y d).schedule = s.schedule := rfl
@[simp] theorem setDiv0Flags_outbox (y d : Word) : (s.setDiv0Flags y d).outbox = s.outbox := rfl
@[simp] theorem setDiv0Flags_free (y d : Word) : (s.setDiv0Flags y d).free = s.free := rfl

/-! ### record -/

@[simp] theorem record_variant (a d c : Word) : (s.record a d c).variant = s.variant := rfl
@[simp] theorem record_strap (a d c : Word) : (s.record a d c).strap = s.strap := rfl
@[simp] theorem record_pc (a d c : Word) : (s.record a d c).pc = s.pc := rfl
@[simp] theorem record_npc (a d c : Word) : (s.record a d c).npc = s.npc := rfl
@[simp] theorem record_prevPc (a d c : Word) : (s.record a d c).prevPc = s.prevPc := rfl
@[simp] theorem record_gr1 (a d c : Word) : (s.record a d c).gr1 = s.gr1 := rfl
@[simp] theorem record_shadow (a d c : Word) : (s.record a d c).shadow = s.shadow := rfl
@[simp] theorem record_gr (a d c : Word) : (s.record a d c).gr = s.gr := rfl
@[simp] theorem record_lr (a d c : Word) : (s.record a d c).lr = s.lr := rfl
@[simp] theorem record_vab (a d c : Word) : (s.record a d c).vab = s.vab := rfl
@[simp] theorem record_ops (a d c : Word) : (s.record a d c).ops = s.ops := rfl
@[simp] theorem record_cps (a d c : Word) : (s.record a d c).cps = s.cps := rfl
@[simp] theorem record_cha (a d c : Word) : (s.record a d c).cha = if s.fz then s.cha else a := rfl
@[simp] theorem record_chd (a d c : Word) : (s.record a d c).chd = if s.fz then s.chd else d := rfl
@[simp] theorem record_chc (a d c : Word) : (s.record a d c).chc = if s.fz then s.chc else c := rfl
@[simp] theorem record_rbp (a d c : Word) : (s.record a d c).rbp = s.rbp := rfl
@[simp] theorem record_tmc (a d c : Word) : (s.record a d c).tmc = s.tmc := rfl
@[simp] theorem record_tmr (a d c : Word) : (s.record a d c).tmr = s.tmr := rfl
@[simp] theorem record_pc0 (a d c : Word) : (s.record a d c).pc0 = s.pc0 := rfl
@[simp] theorem record_pc1 (a d c : Word) : (s.record a d c).pc1 = s.pc1 := rfl
@[simp] theorem record_pc2 (a d c : Word) : (s.record a d c).pc2 = s.pc2 := rfl
@[simp] theorem record_ipa (a d c : Word) : (s.record a d c).ipa = s.ipa := rfl
@[simp] theorem record_ipb (a d c : Word) : (s.record a d c).ipb = s.ipb := rfl
@[simp] theorem record_ipc (a d c : Word) : (s.record a d c).ipc = s.ipc := rfl
@[simp] theorem record_q (a d c : Word) : (s.record a d c).q = s.q := rfl
@[simp] theorem record_alu (a d c : Word) : (s.record a d c).alu = s.alu := rfl
@[simp] theorem record_recent (a d c : Word) : (s.record a d c).recent = s.recent := rfl
@[simp] theorem record_fzSettle (a d c : Word) : (s.record a d c).fzSettle = s.fzSettle := rfl
@[simp] theorem record_chcMl (a d c : Word) : (s.record a d c).chcMl = if s.fz then s.chcMl else false := rfl
@[simp] theorem record_mode (a d c : Word) : (s.record a d c).mode = s.mode := rfl
@[simp] theorem record_warnLatch (a d c : Word) : (s.record a d c).warnLatch = s.warnLatch := rfl
@[simp] theorem record_warnSoon (a d c : Word) : (s.record a d c).warnSoon = s.warnSoon := rfl
@[simp] theorem record_flight (a d c : Word) : (s.record a d c).flight = s.flight := rfl
@[simp] theorem record_multiple (a d c : Word) : (s.record a d c).multiple = s.multiple := rfl
@[simp] theorem record_dbg (a d c : Word) : (s.record a d c).dbg = s.dbg := rfl
@[simp] theorem record_mem (a d c : Word) : (s.record a d c).mem = s.mem := rfl
@[simp] theorem record_romWritable (a d c : Word) : (s.record a d c).romWritable = s.romWritable := rfl
@[simp] theorem record_rmct (a d c : Word) : (s.record a d c).rmct = s.rmct := rfl
@[simp] theorem record_rmcf (a d c : Word) : (s.record a d c).rmcf = s.rmcf := rfl
@[simp] theorem record_drct (a d c : Word) : (s.record a d c).drct = s.drct := rfl
@[simp] theorem record_drcf (a d c : Word) : (s.record a d c).drcf = s.drcf := rfl
@[simp] theorem record_drm0 (a d c : Word) : (s.record a d c).drm0 = s.drm0 := rfl
@[simp] theorem record_drm1 (a d c : Word) : (s.record a d c).drm1 = s.drm1 := rfl
@[simp] theorem record_drm2 (a d c : Word) : (s.record a d c).drm2 = s.drm2 := rfl
@[simp] theorem record_drm3 (a d c : Word) : (s.record a d c).drm3 = s.drm3 := rfl
@[simp] theorem record_pict0 (a d c : Word) : (s.record a d c).pict0 = s.pict0 := rfl
@[simp] theorem record_pict1 (a d c : Word) : (s.record a d c).pict1 = s.pict1 := rfl
@[simp] theorem record_ict (a d c : Word) : (s.record a d c).ict = s.ict := rfl
@[simp] theorem record_dma0 (a d c : Word) : (s.record a d c).dma0 = s.dma0 := rfl
@[simp] theorem record_dma1 (a d c : Word) : (s.record a d c).dma1 = s.dma1 := rfl
@[simp] theorem record_tailAddr (a d c : Word) : (s.record a d c).tailAddr = s.tailAddr := rfl
@[simp] theorem record_tailCount (a d c : Word) : (s.record a d c).tailCount = s.tailCount := rfl
@[simp] theorem record_poct (a d c : Word) : (s.record a d c).poct = s.poct := rfl
@[simp] theorem record_pout (a d c : Word) : (s.record a d c).pout = s.pout := rfl
@[simp] theorem record_poen (a d c : Word) : (s.record a d c).poen = s.poen := rfl
@[simp] theorem record_pioSeen (a d c : Word) : (s.record a d c).pioSeen = s.pioSeen := rfl
@[simp] theorem record_pioAge (a d c : Word) : (s.record a d c).pioAge = s.pioAge := rfl
@[simp] theorem record_serial (a d c : Word) : (s.record a d c).serial = s.serial := rfl
@[simp] theorem record_pport (a d c : Word) : (s.record a d c).pport = s.pport := rfl
@[simp] theorem record_video (a d c : Word) : (s.record a d c).video = s.video := rfl
@[simp] theorem record_pins (a d c : Word) : (s.record a d c).pins = s.pins := rfl
@[simp] theorem record_schedule (a d c : Word) : (s.record a d c).schedule = s.schedule := rfl
@[simp] theorem record_outbox (a d c : Word) : (s.record a d c).outbox = s.outbox := rfl
@[simp] theorem record_free (a d c : Word) : (s.record a d c).free = s.free := rfl

/-! ### setCv -/

@[simp] theorem setCv_variant (b : Bool) : (s.setCv b).variant = s.variant := rfl
@[simp] theorem setCv_strap (b : Bool) : (s.setCv b).strap = s.strap := rfl
@[simp] theorem setCv_pc (b : Bool) : (s.setCv b).pc = s.pc := rfl
@[simp] theorem setCv_npc (b : Bool) : (s.setCv b).npc = s.npc := rfl
@[simp] theorem setCv_prevPc (b : Bool) : (s.setCv b).prevPc = s.prevPc := rfl
@[simp] theorem setCv_gr1 (b : Bool) : (s.setCv b).gr1 = s.gr1 := rfl
@[simp] theorem setCv_shadow (b : Bool) : (s.setCv b).shadow = s.shadow := rfl
@[simp] theorem setCv_gr (b : Bool) : (s.setCv b).gr = s.gr := rfl
@[simp] theorem setCv_lr (b : Bool) : (s.setCv b).lr = s.lr := rfl
@[simp] theorem setCv_vab (b : Bool) : (s.setCv b).vab = s.vab := rfl
@[simp] theorem setCv_ops (b : Bool) : (s.setCv b).ops = s.ops := rfl
@[simp] theorem setCv_cps (b : Bool) : (s.setCv b).cps = s.cps := rfl
@[simp] theorem setCv_cha (b : Bool) : (s.setCv b).cha = s.cha := rfl
@[simp] theorem setCv_chd (b : Bool) : (s.setCv b).chd = s.chd := rfl
@[simp] theorem setCv_chc (b : Bool) : (s.setCv b).chc = if s.fz then s.chc else putBit s.chc 0 b := rfl
@[simp] theorem setCv_rbp (b : Bool) : (s.setCv b).rbp = s.rbp := rfl
@[simp] theorem setCv_tmc (b : Bool) : (s.setCv b).tmc = s.tmc := rfl
@[simp] theorem setCv_tmr (b : Bool) : (s.setCv b).tmr = s.tmr := rfl
@[simp] theorem setCv_pc0 (b : Bool) : (s.setCv b).pc0 = s.pc0 := rfl
@[simp] theorem setCv_pc1 (b : Bool) : (s.setCv b).pc1 = s.pc1 := rfl
@[simp] theorem setCv_pc2 (b : Bool) : (s.setCv b).pc2 = s.pc2 := rfl
@[simp] theorem setCv_ipa (b : Bool) : (s.setCv b).ipa = s.ipa := rfl
@[simp] theorem setCv_ipb (b : Bool) : (s.setCv b).ipb = s.ipb := rfl
@[simp] theorem setCv_ipc (b : Bool) : (s.setCv b).ipc = s.ipc := rfl
@[simp] theorem setCv_q (b : Bool) : (s.setCv b).q = s.q := rfl
@[simp] theorem setCv_alu (b : Bool) : (s.setCv b).alu = s.alu := rfl
@[simp] theorem setCv_recent (b : Bool) : (s.setCv b).recent = s.recent := rfl
@[simp] theorem setCv_fzSettle (b : Bool) : (s.setCv b).fzSettle = s.fzSettle := rfl
@[simp] theorem setCv_chcMl (b : Bool) : (s.setCv b).chcMl = s.chcMl := rfl
@[simp] theorem setCv_mode (b : Bool) : (s.setCv b).mode = s.mode := rfl
@[simp] theorem setCv_warnLatch (b : Bool) : (s.setCv b).warnLatch = s.warnLatch := rfl
@[simp] theorem setCv_warnSoon (b : Bool) : (s.setCv b).warnSoon = s.warnSoon := rfl
@[simp] theorem setCv_flight (b : Bool) : (s.setCv b).flight = s.flight := rfl
@[simp] theorem setCv_multiple (b : Bool) : (s.setCv b).multiple = s.multiple := rfl
@[simp] theorem setCv_dbg (b : Bool) : (s.setCv b).dbg = s.dbg := rfl
@[simp] theorem setCv_mem (b : Bool) : (s.setCv b).mem = s.mem := rfl
@[simp] theorem setCv_romWritable (b : Bool) : (s.setCv b).romWritable = s.romWritable := rfl
@[simp] theorem setCv_rmct (b : Bool) : (s.setCv b).rmct = s.rmct := rfl
@[simp] theorem setCv_rmcf (b : Bool) : (s.setCv b).rmcf = s.rmcf := rfl
@[simp] theorem setCv_drct (b : Bool) : (s.setCv b).drct = s.drct := rfl
@[simp] theorem setCv_drcf (b : Bool) : (s.setCv b).drcf = s.drcf := rfl
@[simp] theorem setCv_drm0 (b : Bool) : (s.setCv b).drm0 = s.drm0 := rfl
@[simp] theorem setCv_drm1 (b : Bool) : (s.setCv b).drm1 = s.drm1 := rfl
@[simp] theorem setCv_drm2 (b : Bool) : (s.setCv b).drm2 = s.drm2 := rfl
@[simp] theorem setCv_drm3 (b : Bool) : (s.setCv b).drm3 = s.drm3 := rfl
@[simp] theorem setCv_pict0 (b : Bool) : (s.setCv b).pict0 = s.pict0 := rfl
@[simp] theorem setCv_pict1 (b : Bool) : (s.setCv b).pict1 = s.pict1 := rfl
@[simp] theorem setCv_ict (b : Bool) : (s.setCv b).ict = s.ict := rfl
@[simp] theorem setCv_dma0 (b : Bool) : (s.setCv b).dma0 = s.dma0 := rfl
@[simp] theorem setCv_dma1 (b : Bool) : (s.setCv b).dma1 = s.dma1 := rfl
@[simp] theorem setCv_tailAddr (b : Bool) : (s.setCv b).tailAddr = s.tailAddr := rfl
@[simp] theorem setCv_tailCount (b : Bool) : (s.setCv b).tailCount = s.tailCount := rfl
@[simp] theorem setCv_poct (b : Bool) : (s.setCv b).poct = s.poct := rfl
@[simp] theorem setCv_pout (b : Bool) : (s.setCv b).pout = s.pout := rfl
@[simp] theorem setCv_poen (b : Bool) : (s.setCv b).poen = s.poen := rfl
@[simp] theorem setCv_pioSeen (b : Bool) : (s.setCv b).pioSeen = s.pioSeen := rfl
@[simp] theorem setCv_pioAge (b : Bool) : (s.setCv b).pioAge = s.pioAge := rfl
@[simp] theorem setCv_serial (b : Bool) : (s.setCv b).serial = s.serial := rfl
@[simp] theorem setCv_pport (b : Bool) : (s.setCv b).pport = s.pport := rfl
@[simp] theorem setCv_video (b : Bool) : (s.setCv b).video = s.video := rfl
@[simp] theorem setCv_pins (b : Bool) : (s.setCv b).pins = s.pins := rfl
@[simp] theorem setCv_schedule (b : Bool) : (s.setCv b).schedule = s.schedule := rfl
@[simp] theorem setCv_outbox (b : Bool) : (s.setCv b).outbox = s.outbox := rfl
@[simp] theorem setCv_free (b : Bool) : (s.setCv b).free = s.free := rfl

/-! ### writeCps -/

@[simp] theorem writeCps_variant (v : Word) : (s.writeCps v).variant = s.variant := rfl
@[simp] theorem writeCps_strap (v : Word) : (s.writeCps v).strap = s.strap := rfl
@[simp] theorem writeCps_pc (v : Word) : (s.writeCps v).pc = s.pc := rfl
@[simp] theorem writeCps_npc (v : Word) : (s.writeCps v).npc = s.npc := rfl
@[simp] theorem writeCps_prevPc (v : Word) : (s.writeCps v).prevPc = s.prevPc := rfl
@[simp] theorem writeCps_gr1 (v : Word) : (s.writeCps v).gr1 = s.gr1 := rfl
@[simp] theorem writeCps_shadow (v : Word) : (s.writeCps v).shadow = s.shadow := rfl
@[simp] theorem writeCps_gr (v : Word) : (s.writeCps v).gr = s.gr := rfl
@[simp] theorem writeCps_lr (v : Word) : (s.writeCps v).lr = s.lr := rfl
@[simp] theorem writeCps_vab (v : Word) : (s.writeCps v).vab = s.vab := rfl
@[simp] theorem writeCps_ops (v : Word) : (s.writeCps v).ops = s.ops := rfl
@[simp] theorem writeCps_cps (v : Word) : (s.writeCps v).cps = v &&& cpsMask := rfl
@[simp] theorem writeCps_cha (v : Word) : (s.writeCps v).cha = s.cha := rfl
@[simp] theorem writeCps_chd (v : Word) : (s.writeCps v).chd = s.chd := rfl
@[simp] theorem writeCps_chc (v : Word) : (s.writeCps v).chc = s.chc := rfl
@[simp] theorem writeCps_rbp (v : Word) : (s.writeCps v).rbp = s.rbp := rfl
@[simp] theorem writeCps_tmc (v : Word) : (s.writeCps v).tmc = s.tmc := rfl
@[simp] theorem writeCps_tmr (v : Word) : (s.writeCps v).tmr = s.tmr := rfl
@[simp] theorem writeCps_pc0 (v : Word) : (s.writeCps v).pc0 = if s.freezes v then wordAligned (s.freeWord 5) else s.pc0 := rfl
@[simp] theorem writeCps_pc1 (v : Word) : (s.writeCps v).pc1 = if s.freezes v then wordAligned (s.freeWord 6) else s.pc1 := rfl
@[simp] theorem writeCps_pc2 (v : Word) : (s.writeCps v).pc2 = if s.freezes v then wordAligned (s.freeWord 7) else s.pc2 := rfl
@[simp] theorem writeCps_ipa (v : Word) : (s.writeCps v).ipa = s.ipa := rfl
@[simp] theorem writeCps_ipb (v : Word) : (s.writeCps v).ipb = s.ipb := rfl
@[simp] theorem writeCps_ipc (v : Word) : (s.writeCps v).ipc = s.ipc := rfl
@[simp] theorem writeCps_q (v : Word) : (s.writeCps v).q = s.q := rfl
@[simp] theorem writeCps_alu (v : Word) : (s.writeCps v).alu = s.alu := rfl
@[simp] theorem writeCps_recent (v : Word) : (s.writeCps v).recent = s.recent := rfl
@[simp] theorem writeCps_fzSettle (v : Word) : (s.writeCps v).fzSettle = if s.fz && !bit v 10 then 3 else s.fzSettle := rfl
@[simp] theorem writeCps_chcMl (v : Word) : (s.writeCps v).chcMl = s.chcMl := rfl
@[simp] theorem writeCps_mode (v : Word) : (s.writeCps v).mode = s.mode := rfl
@[simp] theorem writeCps_warnLatch (v : Word) : (s.writeCps v).warnLatch = s.warnLatch := rfl
@[simp] theorem writeCps_warnSoon (v : Word) : (s.writeCps v).warnSoon = s.warnSoon := rfl
@[simp] theorem writeCps_flight (v : Word) : (s.writeCps v).flight = s.flight := rfl
@[simp] theorem writeCps_multiple (v : Word) : (s.writeCps v).multiple = s.multiple := rfl
@[simp] theorem writeCps_dbg (v : Word) : (s.writeCps v).dbg = s.dbg := rfl
@[simp] theorem writeCps_mem (v : Word) : (s.writeCps v).mem = s.mem := rfl
@[simp] theorem writeCps_romWritable (v : Word) : (s.writeCps v).romWritable = s.romWritable := rfl
@[simp] theorem writeCps_rmct (v : Word) : (s.writeCps v).rmct = s.rmct := rfl
@[simp] theorem writeCps_rmcf (v : Word) : (s.writeCps v).rmcf = s.rmcf := rfl
@[simp] theorem writeCps_drct (v : Word) : (s.writeCps v).drct = s.drct := rfl
@[simp] theorem writeCps_drcf (v : Word) : (s.writeCps v).drcf = s.drcf := rfl
@[simp] theorem writeCps_drm0 (v : Word) : (s.writeCps v).drm0 = s.drm0 := rfl
@[simp] theorem writeCps_drm1 (v : Word) : (s.writeCps v).drm1 = s.drm1 := rfl
@[simp] theorem writeCps_drm2 (v : Word) : (s.writeCps v).drm2 = s.drm2 := rfl
@[simp] theorem writeCps_drm3 (v : Word) : (s.writeCps v).drm3 = s.drm3 := rfl
@[simp] theorem writeCps_pict0 (v : Word) : (s.writeCps v).pict0 = s.pict0 := rfl
@[simp] theorem writeCps_pict1 (v : Word) : (s.writeCps v).pict1 = s.pict1 := rfl
@[simp] theorem writeCps_ict (v : Word) : (s.writeCps v).ict = s.ict := rfl
@[simp] theorem writeCps_dma0 (v : Word) : (s.writeCps v).dma0 = s.dma0 := rfl
@[simp] theorem writeCps_dma1 (v : Word) : (s.writeCps v).dma1 = s.dma1 := rfl
@[simp] theorem writeCps_tailAddr (v : Word) : (s.writeCps v).tailAddr = s.tailAddr := rfl
@[simp] theorem writeCps_tailCount (v : Word) : (s.writeCps v).tailCount = s.tailCount := rfl
@[simp] theorem writeCps_poct (v : Word) : (s.writeCps v).poct = s.poct := rfl
@[simp] theorem writeCps_pout (v : Word) : (s.writeCps v).pout = s.pout := rfl
@[simp] theorem writeCps_poen (v : Word) : (s.writeCps v).poen = s.poen := rfl
@[simp] theorem writeCps_pioSeen (v : Word) : (s.writeCps v).pioSeen = s.pioSeen := rfl
@[simp] theorem writeCps_pioAge (v : Word) : (s.writeCps v).pioAge = s.pioAge := rfl
@[simp] theorem writeCps_serial (v : Word) : (s.writeCps v).serial = s.serial := rfl
@[simp] theorem writeCps_pport (v : Word) : (s.writeCps v).pport = s.pport := rfl
@[simp] theorem writeCps_video (v : Word) : (s.writeCps v).video = s.video := rfl
@[simp] theorem writeCps_pins (v : Word) : (s.writeCps v).pins = s.pins := rfl
@[simp] theorem writeCps_schedule (v : Word) : (s.writeCps v).schedule = s.schedule := rfl
@[simp] theorem writeCps_outbox (v : Word) : (s.writeCps v).outbox = s.outbox := rfl
@[simp] theorem writeCps_free (v : Word) : (s.writeCps v).free = s.free := rfl

/-! ### restoreContext -/

@[simp] theorem restoreContext_variant : (restoreContext s).variant = s.variant := rfl
@[simp] theorem restoreContext_strap : (restoreContext s).strap = s.strap := rfl
@[simp] theorem restoreContext_pc : (restoreContext s).pc = wordAligned s.pc1 := rfl
@[simp] theorem restoreContext_npc : (restoreContext s).npc = wordAligned s.pc0 := rfl
@[simp] theorem restoreContext_prevPc : (restoreContext s).prevPc = s.pc := rfl
@[simp] theorem restoreContext_gr1 : (restoreContext s).gr1 = s.gr1 := rfl
@[simp] theorem restoreContext_shadow : (restoreContext s).shadow = s.shadow := rfl
@[simp] theorem restoreContext_gr : (restoreContext s).gr = s.gr := rfl
@[simp] theorem restoreContext_lr : (restoreContext s).lr = s.lr := rfl
@[simp] theorem restoreContext_vab : (restoreContext s).vab = s.vab := rfl
@[simp] theorem restoreContext_ops : (restoreContext s).ops = s.ops := rfl
@[simp] theorem restoreContext_cps : (restoreContext s).cps = s.ops &&& cpsMask := rfl
@[simp] theorem restoreContext_cha : (restoreContext s).cha = s.cha := rfl
@[simp] theorem restoreContext_chd : (restoreContext s).chd = s.chd := rfl
@[simp] theorem restoreContext_chc : (restoreContext s).chc = s.chc := rfl
@[simp] theorem restoreContext_rbp : (restoreContext s).rbp = s.rbp := rfl
@[simp] theorem restoreContext_tmc : (restoreContext s).tmc = s.tmc := rfl
@[simp] theorem restoreContext_tmr : (restoreContext s).tmr = s.tmr := rfl
@[simp] theorem restoreContext_pc0 : (restoreContext s).pc0 = s.pc0 := rfl
@[simp] theorem restoreContext_pc1 : (restoreContext s).pc1 = s.pc1 := rfl
@[simp] theorem restoreContext_pc2 : (restoreContext s).pc2 = s.pc2 := rfl
@[simp] theorem restoreContext_ipa : (restoreContext s).ipa = s.ipa := rfl
@[simp] theorem restoreContext_ipb : (restoreContext s).ipb = s.ipb := rfl
@[simp] theorem restoreContext_ipc : (restoreContext s).ipc = s.ipc := rfl
@[simp] theorem restoreContext_q : (restoreContext s).q = s.q := rfl
@[simp] theorem restoreContext_alu : (restoreContext s).alu = s.alu := rfl
@[simp] theorem restoreContext_recent : (restoreContext s).recent = Recent.none := rfl
@[simp] theorem restoreContext_fzSettle : (restoreContext s).fzSettle = 0 := rfl
@[simp] theorem restoreContext_chcMl : (restoreContext s).chcMl = false := rfl
@[simp] theorem restoreContext_mode : (restoreContext s).mode = s.mode := rfl
@[simp] theorem restoreContext_warnLatch : (restoreContext s).warnLatch = s.warnLatch := rfl
@[simp] theorem restoreContext_warnSoon : (restoreContext s).warnSoon = s.warnSoon := rfl
@[simp] theorem restoreContext_flight : (restoreContext s).flight = none := rfl
@[simp] theorem restoreContext_multiple : (restoreContext s).multiple = s.multiple := rfl
@[simp] theorem restoreContext_dbg : (restoreContext s).dbg = s.dbg := rfl
@[simp] theorem restoreContext_mem : (restoreContext s).mem = s.mem := rfl
@[simp] theorem restoreContext_romWritable : (restoreContext s).romWritable = s.romWritable := rfl
@[simp] theorem restoreContext_rmct : (restoreContext s).rmct = s.rmct := rfl
@[simp] theorem restoreContext_rmcf : (restoreContext s).rmcf = s.rmcf := rfl
@[simp] theorem restoreContext_drct : (restoreContext s).drct = s.drct := rfl
@[simp] theorem restoreContext_drcf : (restoreContext s).drcf = s.drcf := rfl
@[simp] theorem restoreContext_drm0 : (restoreContext s).drm0 = s.drm0 := rfl
@[simp] theorem restoreContext_drm1 : (restoreContext s).drm1 = s.drm1 := rfl
@[simp] theorem restoreContext_drm2 : (restoreContext s).drm2 = s.drm2 := rfl
@[simp] theorem restoreContext_drm3 : (restoreContext s).drm3 = s.drm3 := rfl
@[simp] theorem restoreContext_pict0 : (restoreContext s).pict0 = s.pict0 := rfl
@[simp] theorem restoreContext_pict1 : (restoreContext s).pict1 = s.pict1 := rfl
@[simp] theorem restoreContext_ict : (restoreContext s).ict = s.ict := rfl
@[simp] theorem restoreContext_dma0 : (restoreContext s).dma0 = s.dma0 := rfl
@[simp] theorem restoreContext_dma1 : (restoreContext s).dma1 = s.dma1 := rfl
@[simp] theorem restoreContext_tailAddr : (restoreContext s).tailAddr = s.tailAddr := rfl
@[simp] theorem restoreContext_tailCount : (restoreContext s).tailCount = s.tailCount := rfl
@[simp] theorem restoreContext_poct : (restoreContext s).poct = s.poct := rfl
@[simp] theorem restoreContext_pout : (restoreContext s).pout = s.pout := rfl
@[simp] theorem restoreContext_poen : (restoreContext s).poen = s.poen := rfl
@[simp] theorem restoreContext_pioSeen : (restoreContext s).pioSeen = s.pioSeen := rfl
@[simp] theorem restoreContext_pioAge : (restoreContext s).pioAge = s.pioAge := rfl
@[simp] theorem restoreContext_serial : (restoreContext s).serial = s.serial := rfl
@[simp] theorem restoreContext_pport : (restoreContext s).pport = s.pport := rfl
@[simp] theorem restoreContext_video : (restoreContext s).video = s.video := rfl
@[simp] theorem restoreContext_pins : (restoreContext s).pins = s.pins := rfl
@[simp] theorem restoreContext_schedule : (restoreContext s).schedule = s.schedule := rfl
@[simp] theorem restoreContext_outbox : (restoreContext s).outbox = s.outbox := rfl
@[simp] theorem restoreContext_free : (restoreContext s).free = s.free := rfl

/-! ### endMultiple -/

@[simp] theorem endMultiple_variant : (endMultiple s).variant = s.variant := rfl
@[simp] theorem endMultiple_strap : (endMultiple s).strap = s.strap := rfl
@[simp] theorem endMultiple_pc : (endMultiple s).pc = s.pc := rfl
@[simp] theorem endMultiple_npc : (endMultiple s).npc = s.npc := rfl
@[simp] theorem endMultiple_prevPc : (endMultiple s).prevPc = s.prevPc := rfl
@[simp] theorem endMultiple_gr1 : (endMultiple s).gr1 = s.gr1 := rfl
@[simp] theorem endMultiple_shadow : (endMultiple s).shadow = s.shadow := rfl
@[simp] theorem endMultiple_gr : (endMultiple s).gr = s.gr := rfl
@[simp] theorem endMultiple_lr : (endMultiple s).lr = s.lr := rfl
@[simp] theorem endMultiple_vab : (endMultiple s).vab = s.vab := rfl
@[simp] theorem endMultiple_ops : (endMultiple s).ops = s.ops := rfl
@[simp] theorem endMultiple_cps : (endMultiple s).cps = s.cps := rfl
@[simp] theorem endMultiple_cha : (endMultiple s).cha = s.cha := rfl
@[simp] theorem endMultiple_chd : (endMultiple s).chd = s.chd := rfl
@[simp] theorem endMultiple_rbp : (endMultiple s).rbp = s.rbp := rfl
@[simp] theorem endMultiple_tmc : (endMultiple s).tmc = s.tmc := rfl
@[simp] theorem endMultiple_tmr : (endMultiple s).tmr = s.tmr := rfl
@[simp] theorem endMultiple_pc0 : (endMultiple s).pc0 = s.pc0 := rfl
@[simp] theorem endMultiple_pc1 : (endMultiple s).pc1 = s.pc1 := rfl
@[simp] theorem endMultiple_pc2 : (endMultiple s).pc2 = s.pc2 := rfl
@[simp] theorem endMultiple_ipa : (endMultiple s).ipa = s.ipa := rfl
@[simp] theorem endMultiple_ipb : (endMultiple s).ipb = s.ipb := rfl
@[simp] theorem endMultiple_ipc : (endMultiple s).ipc = s.ipc := rfl
@[simp] theorem endMultiple_q : (endMultiple s).q = s.q := rfl
@[simp] theorem endMultiple_alu : (endMultiple s).alu = s.alu := rfl
@[simp] theorem endMultiple_recent : (endMultiple s).recent = s.recent := rfl
@[simp] theorem endMultiple_fzSettle : (endMultiple s).fzSettle = s.fzSettle := rfl
@[simp] theorem endMultiple_chcMl : (endMultiple s).chcMl = s.chcMl := rfl
@[simp] theorem endMultiple_mode : (endMultiple s).mode = s.mode := rfl
@[simp] theorem endMultiple_warnLatch : (endMultiple s).warnLatch = s.warnLatch := rfl
@[simp] theorem endMultiple_warnSoon : (endMultiple s).warnSoon = s.warnSoon := rfl
@[simp] theorem endMultiple_flight : (endMultiple s).flight = s.flight := rfl
@[simp] theorem endMultiple_multiple : (endMultiple s).multiple = s.multiple := rfl
@[simp] theorem endMultiple_dbg : (endMultiple s).dbg = s.dbg := rfl
@[simp] theorem endMultiple_mem : (endMultiple s).mem = s.mem := rfl
@[simp] theorem endMultiple_romWritable : (endMultiple s).romWritable = s.romWritable := rfl
@[simp] theorem endMultiple_rmct : (endMultiple s).rmct = s.rmct := rfl
@[simp] theorem endMultiple_rmcf : (endMultiple s).rmcf = s.rmcf := rfl
@[simp] theorem endMultiple_drct : (endMultiple s).drct = s.drct := rfl
@[simp] theorem endMultiple_drcf : (endMultiple s).drcf = s.drcf := rfl
@[simp] theorem endMultiple_drm0 : (endMultiple s).drm0 = s.drm0 := rfl
@[simp] theorem endMultiple_drm1 : (endMultiple s).drm1 = s.drm1 := rfl
@[simp] theorem endMultiple_drm2 : (endMultiple s).drm2 = s.drm2 := rfl
@[simp] theorem endMultiple_drm3 : (endMultiple s).drm3 = s.drm3 := rfl
@[simp] theorem endMultiple_pict0 : (endMultiple s).pict0 = s.pict0 := rfl
@[simp] theorem endMultiple_pict1 : (endMultiple s).pict1 = s.pict1 := rfl
@[simp] theorem endMultiple_ict : (endMultiple s).ict = s.ict := rfl
@[simp] theorem endMultiple_dma0 : (endMultiple s).dma0 = s.dma0 := rfl
@[simp] theorem endMultiple_dma1 : (endMultiple s).dma1 = s.dma1 := rfl
@[simp] theorem endMultiple_tailAddr : (endMultiple s).tailAddr = s.tailAddr := rfl
@[simp] theorem endMultiple_tailCount : (endMultiple s).tailCount = s.tailCount := rfl
@[simp] theorem endMultiple_poct : (endMultiple s).poct = s.poct := rfl
@[simp] theorem endMultiple_pout : (endMultiple s).pout = s.pout := rfl
@[simp] theorem endMultiple_poen : (endMultiple s).poen = s.poen := rfl
@[simp] theorem endMultiple_pioSeen : (endMultiple s).pioSeen = s.pioSeen := rfl
@[simp] theorem endMultiple_pioAge : (endMultiple s).pioAge = s.pioAge := rfl
@[simp] theorem endMultiple_serial : (endMultiple s).serial = s.serial := rfl
@[simp] theorem endMultiple_pport : (endMultiple s).pport = s.pport := rfl
@[simp] theorem endMultiple_video : (endMultiple s).video = s.video := rfl
@[simp] theorem endMultiple_pins : (endMultiple s).pins = s.pins := rfl
@[simp] theorem endMultiple_schedule : (endMultiple s).schedule = s.schedule := rfl
@[simp] theorem endMultiple_outbox : (endMultiple s).outbox = s.outbox := rfl
@[simp] theorem endMultiple_free : (endMultiple s).free = s.free + freeSlots := rfl

/-! ### advanceTimer -/

@[simp] theorem advanceTimer_variant : (advanceTimer s).variant = s.variant := rfl
@[simp] theorem advanceTimer_strap : (advanceTimer s).strap = s.strap := rfl
@[simp] theorem advanceTimer_pc : (advanceTimer s).pc = s.pc := rfl
@[simp] theorem advanceTimer_npc : (advanceTimer s).npc = s.npc := rfl
@[simp] theorem advanceTimer_prevPc : (advanceTimer s).prevPc = s.prevPc := rfl
@[simp] theorem advanceTimer_gr1 : (advanceTimer s).gr1 = s.gr1 := rfl
@[simp] theorem advanceTimer_shadow : (advanceTimer s).shadow = s.shadow := rfl
@[simp] theorem advanceTimer_gr : (advanceTimer s).gr = s.gr := rfl
@[simp] theorem advanceTimer_lr : (advanceTimer s).lr = s.lr := rfl
@[simp] theorem advanceTimer_vab : (advanceTimer s).vab = s.vab := rfl
@[simp] theorem advanceTimer_ops : (advanceTimer s).ops = s.ops := rfl
@[simp] theorem advanceTimer_cps : (advanceTimer s).cps = s.cps := rfl
@[simp] theorem advanceTimer_cha : (advanceTimer s).cha = s.cha := rfl
@[simp] theorem advanceTimer_chd : (advanceTimer s).chd = s.chd := rfl
@[simp] theorem advanceTimer_chc : (advanceTimer s).chc = s.chc := rfl
@[simp] theorem advanceTimer_rbp : (advanceTimer s).rbp = s.rbp := rfl
@[simp] theorem advanceTimer_pc0 : (advanceTimer s).pc0 = s.pc0 := rfl
@[simp] theorem advanceTimer_pc1 : (advanceTimer s).pc1 = s.pc1 := rfl
@[simp] theorem advanceTimer_pc2 : (advanceTimer s).pc2 = s.pc2 := rfl
@[simp] theorem advanceTimer_ipa : (advanceTimer s).ipa = s.ipa := rfl
@[simp] theorem advanceTimer_ipb : (advanceTimer s).ipb = s.ipb := rfl
@[simp] theorem advanceTimer_ipc : (advanceTimer s).ipc = s.ipc := rfl
@[simp] theorem advanceTimer_q : (advanceTimer s).q = s.q := rfl
@[simp] theorem advanceTimer_alu : (advanceTimer s).alu = s.alu := rfl
@[simp] theorem advanceTimer_recent : (advanceTimer s).recent = s.recent := rfl
@[simp] theorem advanceTimer_fzSettle : (advanceTimer s).fzSettle = s.fzSettle := rfl
@[simp] theorem advanceTimer_chcMl : (advanceTimer s).chcMl = s.chcMl := rfl
@[simp] theorem advanceTimer_mode : (advanceTimer s).mode = s.mode := rfl
@[simp] theorem advanceTimer_warnLatch : (advanceTimer s).warnLatch = s.warnLatch := rfl
@[simp] theorem advanceTimer_warnSoon : (advanceTimer s).warnSoon = s.warnSoon := rfl
@[simp] theorem advanceTimer_flight : (advanceTimer s).flight = s.flight := rfl
@[simp] theorem advanceTimer_multiple : (advanceTimer s).multiple = s.multiple := rfl
@[simp] theorem advanceTimer_dbg : (advanceTimer s).dbg = s.dbg := rfl
@[simp] theorem advanceTimer_mem : (advanceTimer s).mem = s.mem := rfl
@[simp] theorem advanceTimer_romWritable : (advanceTimer s).romWritable = s.romWritable := rfl
@[simp] theorem advanceTimer_rmct : (advanceTimer s).rmct = s.rmct := rfl
@[simp] theorem advanceTimer_rmcf : (advanceTimer s).rmcf = s.rmcf := rfl
@[simp] theorem advanceTimer_drct : (advanceTimer s).drct = s.drct := rfl
@[simp] theorem advanceTimer_drcf : (advanceTimer s).drcf = s.drcf := rfl
@[simp] theorem advanceTimer_drm0 : (advanceTimer s).drm0 = s.drm0 := rfl
@[simp] theorem advanceTimer_drm1 : (advanceTimer s).drm1 = s.drm1 := rfl
@[simp] theorem advanceTimer_drm2 : (advanceTimer s).drm2 = s.drm2 := rfl
@[simp] theorem advanceTimer_drm3 : (advanceTimer s).drm3 = s.drm3 := rfl
@[simp] theorem advanceTimer_pict0 : (advanceTimer s).pict0 = s.pict0 := rfl
@[simp] theorem advanceTimer_pict1 : (advanceTimer s).pict1 = s.pict1 := rfl
@[simp] theorem advanceTimer_ict : (advanceTimer s).ict = s.ict := rfl
@[simp] theorem advanceTimer_dma0 : (advanceTimer s).dma0 = s.dma0 := rfl
@[simp] theorem advanceTimer_dma1 : (advanceTimer s).dma1 = s.dma1 := rfl
@[simp] theorem advanceTimer_tailAddr : (advanceTimer s).tailAddr = s.tailAddr := rfl
@[simp] theorem advanceTimer_tailCount : (advanceTimer s).tailCount = s.tailCount := rfl
@[simp] theorem advanceTimer_poct : (advanceTimer s).poct = s.poct := rfl
@[simp] theorem advanceTimer_pout : (advanceTimer s).pout = s.pout := rfl
@[simp] theorem advanceTimer_poen : (advanceTimer s).poen = s.poen := rfl
@[simp] theorem advanceTimer_pioSeen : (advanceTimer s).pioSeen = s.pioSeen := rfl
@[simp] theorem advanceTimer_pioAge : (advanceTimer s).pioAge = s.pioAge := rfl
@[simp] theorem advanceTimer_serial : (advanceTimer s).serial = s.serial := rfl
@[simp] theorem advanceTimer_pport : (advanceTimer s).pport = s.pport := rfl
@[simp] theorem advanceTimer_video : (advanceTimer s).video = s.video := rfl
@[simp] theorem advanceTimer_pins : (advanceTimer s).pins = s.pins := rfl
@[simp] theorem advanceTimer_schedule : (advanceTimer s).schedule = s.schedule := rfl
@[simp] theorem advanceTimer_outbox : (advanceTimer s).outbox = s.outbox := rfl
@[simp] theorem advanceTimer_free : (advanceTimer s).free = s.free := rfl

/-! ### trackFlight -/

@[simp] theorem trackFlight_variant (i : Instr) (o : State) : (trackFlight i o s).variant = s.variant := by unfold trackFlight; split <;> rfl
@[simp] theorem trackFlight_strap (i : Instr) (o : State) : (trackFlight i o s).strap = s.strap := by unfold trackFlight; split <;> rfl
@[simp] theorem trackFlight_pc (i : Instr) (o : State) : (trackFlight i o s).pc = s.pc := by unfold trackFlight; split <;> rfl
@[simp] theorem trackFlight_npc (i : Instr) (o : State) : (trackFlight i o s).npc = s.npc := by unfold trackFlight; split <;> rfl
@[simp] theorem trackFlight_prevPc (i : Instr) (o : State) : (trackFlight i o s).prevPc = s.prevPc := by unfold trackFlight; split <;> rfl
@[simp] theorem trackFlight_gr1 (i : Instr) (o : State) : (trackFlight i o s).gr1 = s.gr1 := by unfold trackFlight; split <;> rfl
@[simp] theorem trackFlight_shadow (i : Instr) (o : State) : (trackFlight i o s).shadow = s.shadow := by unfold trackFlight; split <;> rfl
@[simp] theorem trackFlight_gr (i : Instr) (o : State) : (trackFlight i o s).gr = s.gr := by unfold trackFlight; split <;> rfl
@[simp] theorem trackFlight_lr (i : Instr) (o : State) : (trackFlight i o s).lr = s.lr := by unfold trackFlight; split <;> rfl
@[simp] theorem trackFlight_vab (i : Instr) (o : State) : (trackFlight i o s).vab = s.vab := by unfold trackFlight; split <;> rfl
@[simp] theorem trackFlight_ops (i : Instr) (o : State) : (trackFlight i o s).ops = s.ops := by unfold trackFlight; split <;> rfl
@[simp] theorem trackFlight_cps (i : Instr) (o : State) : (trackFlight i o s).cps = s.cps := by unfold trackFlight; split <;> rfl
@[simp] theorem trackFlight_cha (i : Instr) (o : State) : (trackFlight i o s).cha = s.cha := by unfold trackFlight; split <;> rfl
@[simp] theorem trackFlight_chd (i : Instr) (o : State) : (trackFlight i o s).chd = s.chd := by unfold trackFlight; split <;> rfl
@[simp] theorem trackFlight_chc (i : Instr) (o : State) : (trackFlight i o s).chc = s.chc := by unfold trackFlight; split <;> rfl
@[simp] theorem trackFlight_rbp (i : Instr) (o : State) : (trackFlight i o s).rbp = s.rbp := by unfold trackFlight; split <;> rfl
@[simp] theorem trackFlight_tmc (i : Instr) (o : State) : (trackFlight i o s).tmc = s.tmc := by unfold trackFlight; split <;> rfl
@[simp] theorem trackFlight_tmr (i : Instr) (o : State) : (trackFlight i o s).tmr = s.tmr := by unfold trackFlight; split <;> rfl
@[simp] theorem trackFlight_pc0 (i : Instr) (o : State) : (trackFlight i o s).pc0 = s.pc0 := by unfold trackFlight; split <;> rfl
@[simp] theorem trackFlight_pc1 (i : Instr) (o : State) : (trackFlight i o s).pc1 = s.pc1 := by unfold trackFlight; split <;> rfl
@[simp] theorem trackFlight_pc2 (i : Instr) (o : State) : (trackFlight i o s).pc2 = s.pc2 := by unfold trackFlight; split <;> rfl
@[simp] theorem trackFlight_ipa (i : Instr) (o : State) : (trackFlight i o s).ipa = s.ipa := by unfold trackFlight; split <;> rfl
@[simp] theorem trackFlight_ipb (i : Instr) (o : State) : (trackFlight i o s).ipb = s.ipb := by unfold trackFlight; split <;> rfl
@[simp] theorem trackFlight_ipc (i : Instr) (o : State) : (trackFlight i o s).ipc = s.ipc := by unfold trackFlight; split <;> rfl
@[simp] theorem trackFlight_q (i : Instr) (o : State) : (trackFlight i o s).q = s.q := by unfold trackFlight; split <;> rfl
@[simp] theorem trackFlight_alu (i : Instr) (o : State) : (trackFlight i o s).alu = s.alu := by unfold trackFlight; split <;> rfl
@[simp] theorem trackFlight_recent (i : Instr) (o : State) : (trackFlight i o s).recent = s.recent := by unfold trackFlight; split <;> rfl
@[simp] theorem trackFlight_fzSettle (i : Instr) (o : State) : (trackFlight i o s).fzSettle = s.fzSettle := by unfold trackFlight; split <;> rfl
@[simp] theorem trackFlight_chcMl (i : Instr) (o : State) : (trackFlight i o s).chcMl = s.chcMl := by unfold trackFlight; split <;> rfl
@[simp] theorem trackFlight_mode (i : Instr) (o : State) : (trackFlight i o s).mode = s.mode := by unfold trackFlight; split <;> rfl
@[simp] theorem trackFlight_warnLatch (i : Instr) (o : State) : (trackFlight i o s).warnLatch = s.warnLatch := by unfold trackFlight; split <;> rfl
@[simp] theorem trackFlight_warnSoon (i : Instr) (o : State) : (trackFlight i o s).warnSoon = s.warnSoon := by unfold trackFlight; split <;> rfl
@[simp] theorem trackFlight_multiple (i : Instr) (o : State) : (trackFlight i o s).multiple = s.multiple := by unfold trackFlight; split <;> rfl
@[simp] theorem trackFlight_dbg (i : Instr) (o : State) : (trackFlight i o s).dbg = s.dbg := by unfold trackFlight; split <;> rfl
@[simp] theorem trackFlight_mem (i : Instr) (o : State) : (trackFlight i o s).mem = s.mem := by unfold trackFlight; split <;> rfl
@[simp] theorem trackFlight_romWritable (i : Instr) (o : State) : (trackFlight i o s).romWritable = s.romWritable := by unfold trackFlight; split <;> rfl
@[simp] theorem trackFlight_rmct (i : Instr) (o : State) : (trackFlight i o s).rmct = s.rmct := by unfold trackFlight; split <;> rfl
@[simp] theorem trackFlight_rmcf (i : Instr) (o : State) : (trackFlight i o s).rmcf = s.rmcf := by unfold trackFlight; split <;> rfl
@[simp] theorem trackFlight_drct (i : Instr) (o : State) : (trackFlight i o s).drct = s.drct := by unfold trackFlight; split <;> rfl
@[simp] theorem trackFlight_drcf (i : Instr) (o : State) : (trackFlight i o s).drcf = s.drcf := by unfold trackFlight; split <;> rfl
@[simp] theorem trackFlight_drm0 (i : Instr) (o : State) : (trackFlight i o s).drm0 = s.drm0 := by unfold trackFlight; split <;> rfl
@[simp] theorem trackFlight_drm1 (i : Instr) (o : State) : (trackFlight i o s).drm1 = s.drm1 := by unfold trackFlight; split <;> rfl
@[simp] theorem trackFlight_drm2 (i : Instr) (o : State) : (trackFlight i o s).drm2 = s.drm2 := by unfold trackFlight; split <;> rfl
@[simp] theorem trackFlight_drm3 (i : Instr) (o : State) : (trackFlight i o s).drm3 = s.drm3 := by unfold trackFlight; split <;> rfl
@[simp] theorem trackFlight_pict0 (i : Instr) (o : State) : (trackFlight i o s).pict0 = s.pict0 := by unfold trackFlight; split <;> rfl
@[simp] theorem trackFlight_pict1 (i : Instr) (o : State) : (trackFlight i o s).pict1 = s.pict1 := by unfold trackFlight; split <;> rfl
@[simp] theorem trackFlight_ict (i : Instr) (o : State) : (trackFlight i o s).ict = s.ict := by unfold trackFlight; split <;> rfl
@[simp] theorem trackFlight_dma0 (i : Instr) (o : State) : (trackFlight i o s).dma0 = s.dma0 := by unfold trackFlight; split <;> rfl
@[simp] theorem trackFlight_dma1 (i : Instr) (o : State) : (trackFlight i o s).dma1 = s.dma1 := by unfold trackFlight; split <;> rfl
@[simp] theorem trackFlight_tailAddr (i : Instr) (o : State) : (trackFlight i o s).tailAddr = s.tailAddr := by unfold trackFlight; split <;> rfl
@[simp] theorem trackFlight_tailCount (i : Instr) (o : State) : (trackFlight i o s).tailCount = s.tailCount := by unfold trackFlight; split <;> rfl
@[simp] theorem trackFlight_poct (i : Instr) (o : State) : (trackFlight i o s).poct = s.poct := by unfold trackFlight; split <;> rfl
@[simp] theorem trackFlight_pout (i : Instr) (o : State) : (trackFlight i o s).pout = s.pout := by unfold trackFlight; split <;> rfl
@[simp] theorem trackFlight_poen (i : Instr) (o : State) : (trackFlight i o s).poen = s.poen := by unfold trackFlight; split <;> rfl
@[simp] theorem trackFlight_pioSeen (i : Instr) (o : State) : (trackFlight i o s).pioSeen = s.pioSeen := by unfold trackFlight; split <;> rfl
@[simp] theorem trackFlight_pioAge (i : Instr) (o : State) : (trackFlight i o s).pioAge = s.pioAge := by unfold trackFlight; split <;> rfl
@[simp] theorem trackFlight_serial (i : Instr) (o : State) : (trackFlight i o s).serial = s.serial := by unfold trackFlight; split <;> rfl
@[simp] theorem trackFlight_pport (i : Instr) (o : State) : (trackFlight i o s).pport = s.pport := by unfold trackFlight; split <;> rfl
@[simp] theorem trackFlight_video (i : Instr) (o : State) : (trackFlight i o s).video = s.video := by unfold trackFlight; split <;> rfl
@[simp] theorem trackFlight_pins (i : Instr) (o : State) : (trackFlight i o s).pins = s.pins := by unfold trackFlight; split <;> rfl
@[simp] theorem trackFlight_schedule (i : Instr) (o : State) : (trackFlight i o s).schedule = s.schedule := by unfold trackFlight; split <;> rfl
@[simp] theorem trackFlight_outbox (i : Instr) (o : State) : (trackFlight i o s).outbox = s.outbox := by unfold trackFlight; split <;> rfl
@[simp] theorem trackFlight_free (i : Instr) (o : State) : (trackFlight i o s).free = s.free := by unfold trackFlight; split <;> rfl

/-! ### latchEdges -/

@[simp] theorem latchEdges_variant (e : Nat → Bool) : (latchEdges e s).variant = s.variant := by unfold latchEdges; dsimp only; split <;> rfl
@[simp] theorem latchEdges_strap (e : Nat → Bool) : (latchEdges e s).strap = s.strap := by unfold latchEdges; dsimp only; split <;> rfl
@[simp] theorem latchEdges_pc (e : Nat → Bool) : (latchEdges e s).pc = s.pc := by unfold latchEdges; dsimp only; split <;> rfl
@[simp] theorem latchEdges_npc (e : Nat → Bool) : (latchEdges e s).npc = s.npc := by unfold latchEdges; dsimp only; split <;> rfl
@[simp] theorem latchEdges_prevPc (e : Nat → Bool) : (latchEdges e s).prevPc = s.prevPc := by unfold latchEdges; dsimp only; split <;> rfl
@[simp] theorem latchEdges_gr1 (e : Nat → Bool) : (latchEdges e s).gr1 = s.gr1 := by unfold latchEdges; dsimp only; split <;> rfl
@[simp] theorem latchEdges_shadow (e : Nat → Bool) : (latchEdges e s).shadow = s.shadow := by unfold latchEdges; dsimp only; split <;> rfl
@[simp] theorem latchEdges_gr (e : Nat → Bool) : (latchEdges e s).gr = s.gr := by unfold latchEdges; dsimp only; split <;> rfl
@[simp] theorem latchEdges_lr (e : Nat → Bool) : (latchEdges e s).lr = s.lr := by unfold latchEdges; dsimp only; split <;> rfl
@[simp] theorem latchEdges_vab (e : Nat → Bool) : (latchEdges e s).vab = s.vab := by unfold latchEdges; dsimp only; split <;> rfl
@[simp] theorem latchEdges_ops (e : Nat → Bool) : (latchEdges e s).ops = s.ops := by unfold latchEdges; dsimp only; split <;> rfl
@[simp] theorem latchEdges_cps (e : Nat → Bool) : (latchEdges e s).cps = s.cps := by unfold latchEdges; dsimp only; split <;> rfl
@[simp] theorem latchEdges_cha (e : Nat → Bool) : (latchEdges e s).cha = s.cha := by unfold latchEdges; dsimp only; split <;> rfl
@[simp] theorem latchEdges_chd (e : Nat → Bool) : (latchEdges e s).chd = s.chd := by unfold latchEdges; dsimp only; split <;> rfl
@[simp] theorem latchEdges_chc (e : Nat → Bool) : (latchEdges e s).chc = s.chc := by unfold latchEdges; dsimp only; split <;> rfl
@[simp] theorem latchEdges_rbp (e : Nat → Bool) : (latchEdges e s).rbp = s.rbp := by unfold latchEdges; dsimp only; split <;> rfl
@[simp] theorem latchEdges_tmc (e : Nat → Bool) : (latchEdges e s).tmc = s.tmc := by unfold latchEdges; dsimp only; split <;> rfl
@[simp] theorem latchEdges_tmr (e : Nat → Bool) : (latchEdges e s).tmr = s.tmr := by unfold latchEdges; dsimp only; split <;> rfl
@[simp] theorem latchEdges_pc0 (e : Nat → Bool) : (latchEdges e s).pc0 = s.pc0 := by unfold latchEdges; dsimp only; split <;> rfl
@[simp] theorem latchEdges_pc1 (e : Nat → Bool) : (latchEdges e s).pc1 = s.pc1 := by unfold latchEdges; dsimp only; split <;> rfl
@[simp] theorem latchEdges_pc2 (e : Nat → Bool) : (latchEdges e s).pc2 = s.pc2 := by unfold latchEdges; dsimp only; split <;> rfl
@[simp] theorem latchEdges_ipa (e : Nat → Bool) : (latchEdges e s).ipa = s.ipa := by unfold latchEdges; dsimp only; split <;> rfl
@[simp] theorem latchEdges_ipb (e : Nat → Bool) : (latchEdges e s).ipb = s.ipb := by unfold latchEdges; dsimp only; split <;> rfl
@[simp] theorem latchEdges_ipc (e : Nat → Bool) : (latchEdges e s).ipc = s.ipc := by unfold latchEdges; dsimp only; split <;> rfl
@[simp] theorem latchEdges_q (e : Nat → Bool) : (latchEdges e s).q = s.q := by unfold latchEdges; dsimp only; split <;> rfl
@[simp] theorem latchEdges_alu (e : Nat → Bool) : (latchEdges e s).alu = s.alu := by unfold latchEdges; dsimp only; split <;> rfl
@[simp] theorem latchEdges_recent (e : Nat → Bool) : (latchEdges e s).recent = s.recent := by unfold latchEdges; dsimp only; split <;> rfl
@[simp] theorem latchEdges_fzSettle (e : Nat → Bool) : (latchEdges e s).fzSettle = s.fzSettle := by unfold latchEdges; dsimp only; split <;> rfl
@[simp] theorem latchEdges_chcMl (e : Nat → Bool) : (latchEdges e s).chcMl = s.chcMl := by unfold latchEdges; dsimp only; split <;> rfl
@[simp] theorem latchEdges_mode (e : Nat → Bool) : (latchEdges e s).mode = s.mode := by unfold latchEdges; dsimp only; split <;> rfl
@[simp] theorem latchEdges_warnLatch (e : Nat → Bool) : (latchEdges e s).warnLatch = s.warnLatch := by unfold latchEdges; dsimp only; split <;> rfl
@[simp] theorem latchEdges_warnSoon (e : Nat → Bool) : (latchEdges e s).warnSoon = s.warnSoon := by unfold latchEdges; dsimp only; split <;> rfl
@[simp] theorem latchEdges_flight (e : Nat → Bool) : (latchEdges e s).flight = s.flight := by unfold latchEdges; dsimp only; split <;> rfl
@[simp] theorem latchEdges_multiple (e : Nat → Bool) : (latchEdges e s).multiple = s.multiple := by unfold latchEdges; dsimp only; split <;> rfl
@[simp] theorem latchEdges_dbg (e : Nat → Bool) : (latchEdges e s).dbg = s.dbg := by unfold latchEdges; dsimp only; split <;> rfl
@[simp] theorem latchEdges_mem (e : Nat → Bool) : (latchEdges e s).mem = s.mem := by unfold latchEdges; dsimp only; split <;> rfl
@[simp] theorem latchEdges_romWritable (e : Nat → Bool) : (latchEdges e s).romWritable = s.romWritable := by unfold latchEdges; dsimp only; split <;> rfl
@[simp] theorem latchEdges_rmct (e : Nat → Bool) : (latchEdges e s).rmct = s.rmct := by unfold latchEdges; dsimp only; split <;> rfl
@[simp] theorem latchEdges_rmcf (e : Nat → Bool) : (latchEdges e s).rmcf = s.rmcf := by unfold latchEdges; dsimp only; split <;> rfl
@[simp] theorem latchEdges_drct (e : Nat → Bool) : (latchEdges e s).drct = s.drct := by unfold latchEdges; dsimp only; split <;> rfl
@[simp] theorem latchEdges_drcf (e : Nat → Bool) : (latchEdges e s).drcf = s.drcf := by unfold latchEdges; dsimp only; split <;> rfl
@[simp] theorem latchEdges_drm0 (e : Nat → Bool) : (latchEdges e s).drm0 = s.drm0 := by unfold latchEdges; dsimp only; split <;> rfl
@[simp] theorem latchEdges_drm1 (e : Nat → Bool) : (latchEdges e s).drm1 = s.drm1 := by unfold latchEdges; dsimp only; split <;> rfl
@[simp] theorem latchEdges_drm2 (e : Nat → Bool) : (latchEdges e s).drm2 = s.drm2 := by unfold latchEdges; dsimp only; split <;> rfl
@[simp] theorem latchEdges_drm3 (e : Nat → Bool) : (latchEdges e s).drm3 = s.drm3 := by unfold latchEdges; dsimp only; split <;> rfl
@[simp] theorem latchEdges_pict0 (e : Nat → Bool) : (latchEdges e s).pict0 = s.pict0 := by unfold latchEdges; dsimp only; split <;> rfl
@[simp] theorem latchEdges_pict1 (e : Nat → Bool) : (latchEdges e s).pict1 = s.pict1 := by unfold latchEdges; dsimp only; split <;> rfl
@[simp] theorem latchEdges_dma0 (e : Nat → Bool) : (latchEdges e s).dma0 = s.dma0 := by unfold latchEdges; dsimp only; split <;> rfl
@[simp] theorem latchEdges_dma1 (e : Nat → Bool) : (latchEdges e s).dma1 = s.dma1 := by unfold latchEdges; dsimp only; split <;> rfl
@[simp] theorem latchEdges_tailAddr (e : Nat → Bool) : (latchEdges e s).tailAddr = s.tailAddr := by unfold latchEdges; dsimp only; split <;> rfl
@[simp] theorem latchEdges_tailCount (e : Nat → Bool) : (latchEdges e s).tailCount = s.tailCount := by unfold latchEdges; dsimp only; split <;> rfl
@[simp] theorem latchEdges_poct (e : Nat → Bool) : (latchEdges e s).poct = s.poct := by unfold latchEdges; dsimp only; split <;> rfl
@[simp] theorem latchEdges_pout (e : Nat → Bool) : (latchEdges e s).pout = s.pout := by unfold latchEdges; dsimp only; split <;> rfl
@[simp] theorem latchEdges_poen (e : Nat → Bool) : (latchEdges e s).poen = s.poen := by unfold latchEdges; dsimp only; split <;> rfl
@[simp] theorem latchEdges_pioSeen (e : Nat → Bool) : (latchEdges e s).pioSeen = s.pioSeen := by unfold latchEdges; dsimp only; split <;> rfl
@[simp] theorem latchEdges_pioAge (e : Nat → Bool) : (latchEdges e s).pioAge = s.pioAge := by unfold latchEdges; dsimp only; split <;> rfl
@[simp] theorem latchEdges_serial (e : Nat → Bool) : (latchEdges e s).serial = s.serial := by unfold latchEdges; dsimp only; split <;> rfl
@[simp] theorem latchEdges_video (e : Nat → Bool) : (latchEdges e s).video = s.video := by unfold latchEdges; dsimp only; split <;> rfl
@[simp] theorem latchEdges_pins (e : Nat → Bool) : (latchEdges e s).pins = s.pins := by unfold latchEdges; dsimp only; split <;> rfl
@[simp] theorem latchEdges_schedule (e : Nat → Bool) : (latchEdges e s).schedule = s.schedule := by unfold latchEdges; dsimp only; split <;> rfl
@[simp] theorem latchEdges_outbox (e : Nat → Bool) : (latchEdges e s).outbox = s.outbox := by unfold latchEdges; dsimp only; split <;> rfl
@[simp] theorem latchEdges_free (e : Nat → Bool) : (latchEdges e s).free = s.free := by unfold latchEdges; dsimp only; split <;> rfl

/-! ### latchPins -/

@[simp] theorem latchPins_variant (o : State) : (latchPins o s).variant = s.variant := latchEdges_variant s _
@[simp] theorem latchPins_strap (o : State) : (latchPins o s).strap = s.strap := latchEdges_strap s _
@[simp] theorem latchPins_pc (o : State) : (latchPins o s).pc = s.pc := latchEdges_pc s _
@[simp] theorem latchPins_npc (o : State) : (latchPins o s).npc = s.npc := latchEdges_npc s _
@[simp] theorem latchPins_prevPc (o : State) : (latchPins o s).prevPc = s.prevPc := latchEdges_prevPc s _
@[simp] theorem latchPins_gr1 (o : State) : (latchPins o s).gr1 = s.gr1 := latchEdges_gr1 s _
@[simp] theorem latchPins_shadow (o : State) : (latchPins o s).shadow = s.shadow := latchEdges_shadow s _
@[simp] theorem latchPins_gr (o : State) : (latchPins o s).gr = s.gr := latchEdges_gr s _
@[simp] theorem latchPins_lr (o : State) : (latchPins o s).lr = s.lr := latchEdges_lr s _
@[simp] theorem latchPins_vab (o : State) : (latchPins o s).vab = s.vab := latchEdges_vab s _
@[simp] theorem latchPins_ops (o : State) : (latchPins o s).ops = s.ops := latchEdges_ops s _
@[simp] theorem latchPins_cps (o : State) : (latchPins o s).cps = s.cps := latchEdges_cps s _
@[simp] theorem latchPins_cha (o : State) : (latchPins o s).cha = s.cha := latchEdges_cha s _
@[simp] theorem latchPins_chd (o : State) : (latchPins o s).chd = s.chd := latchEdges_chd s _
@[simp] theorem latchPins_chc (o : State) : (latchPins o s).chc = s.chc := latchEdges_chc s _
@[simp] theorem latchPins_rbp (o : State) : (latchPins o s).rbp = s.rbp := latchEdges_rbp s _
@[simp] theorem latchPins_tmc (o : State) : (latchPins o s).tmc = s.tmc := latchEdges_tmc s _
@[simp] theorem latchPins_tmr (o : State) : (latchPins o s).tmr = s.tmr := latchEdges_tmr s _
@[simp] theorem latchPins_pc0 (o : State) : (latchPins o s).pc0 = s.pc0 := latchEdges_pc0 s _
@[simp] theorem latchPins_pc1 (o : State) : (latchPins o s).pc1 = s.pc1 := latchEdges_pc1 s _
@[simp] theorem latchPins_pc2 (o : State) : (latchPins o s).pc2 = s.pc2 := latchEdges_pc2 s _
@[simp] theorem latchPins_ipa (o : State) : (latchPins o s).ipa = s.ipa := latchEdges_ipa s _
@[simp] theorem latchPins_ipb (o : State) : (latchPins o s).ipb = s.ipb := latchEdges_ipb s _
@[simp] theorem latchPins_ipc (o : State) : (latchPins o s).ipc = s.ipc := latchEdges_ipc s _
@[simp] theorem latchPins_q (o : State) : (latchPins o s).q = s.q := latchEdges_q s _
@[simp] theorem latchPins_alu (o : State) : (latchPins o s).alu = s.alu := latchEdges_alu s _
@[simp] theorem latchPins_recent (o : State) : (latchPins o s).recent = s.recent := latchEdges_recent s _
@[simp] theorem latchPins_fzSettle (o : State) : (latchPins o s).fzSettle = s.fzSettle := latchEdges_fzSettle s _
@[simp] theorem latchPins_chcMl (o : State) : (latchPins o s).chcMl = s.chcMl := latchEdges_chcMl s _
@[simp] theorem latchPins_mode (o : State) : (latchPins o s).mode = s.mode := latchEdges_mode s _
@[simp] theorem latchPins_warnLatch (o : State) : (latchPins o s).warnLatch = s.warnLatch := latchEdges_warnLatch s _
@[simp] theorem latchPins_warnSoon (o : State) : (latchPins o s).warnSoon = s.warnSoon := latchEdges_warnSoon s _
@[simp] theorem latchPins_flight (o : State) : (latchPins o s).flight = s.flight := latchEdges_flight s _
@[simp] theorem latchPins_multiple (o : State) : (latchPins o s).multiple = s.multiple := latchEdges_multiple s _
@[simp] theorem latchPins_dbg (o : State) : (latchPins o s).dbg = s.dbg := latchEdges_dbg s _
@[simp] theorem latchPins_mem (o : State) : (latchPins o s).mem = s.mem := latchEdges_mem s _
@[simp] theorem latchPins_romWritable (o : State) : (latchPins o s).romWritable = s.romWritable := latchEdges_romWritable s _
@[simp] theorem latchPins_rmct (o : State) : (latchPins o s).rmct = s.rmct := latchEdges_rmct s _
@[simp] theorem latchPins_rmcf (o : State) : (latchPins o s).rmcf = s.rmcf := latchEdges_rmcf s _
@[simp] theorem latchPins_drct (o : State) : (latchPins o s).drct = s.drct := latchEdges_drct s _
@[simp] theorem latchPins_drcf (o : State) : (latchPins o s).drcf = s.drcf := latchEdges_drcf s _
@[simp] theorem latchPins_drm0 (o : State) : (latchPins o s).drm0 = s.drm0 := latchEdges_drm0 s _
@[simp] theorem latchPins_drm1 (o : State) : (latchPins o s).drm1 = s.drm1 := latchEdges_drm1 s _
@[simp] theorem latchPins_drm2 (o : State) : (latchPins o s).drm2 = s.drm2 := latchEdges_drm2 s _
@[simp] theorem latchPins_drm3 (o : State) : (latchPins o s).drm3 = s.drm3 := latchEdges_drm3 s _
@[simp] theorem latchPins_pict0 (o : State) : (latchPins o s).pict0 = s.pict0 := latchEdges_pict0 s _
@[simp] theorem latchPins_pict1 (o : State) : (latchPins o s).pict1 = s.pict1 := latchEdges_pict1 s _
@[simp] theorem latchPins_dma0 (o : State) : (latchPins o s).dma0 = s.dma0 := latchEdges_dma0 s _
@[simp] theorem latchPins_dma1 (o : State) : (latchPins o s).dma1 = s.dma1 := latchEdges_dma1 s _
@[simp] theorem latchPins_tailAddr (o : State) : (latchPins o s).tailAddr = s.tailAddr := latchEdges_tailAddr s _
@[simp] theorem latchPins_tailCount (o : State) : (latchPins o s).tailCount = s.tailCount := latchEdges_tailCount s _
@[simp] theorem latchPins_poct (o : State) : (latchPins o s).poct = s.poct := latchEdges_poct s _
@[simp] theorem latchPins_pout (o : State) : (latchPins o s).pout = s.pout := latchEdges_pout s _
@[simp] theorem latchPins_poen (o : State) : (latchPins o s).poen = s.poen := latchEdges_poen s _
@[simp] theorem latchPins_pioSeen (o : State) : (latchPins o s).pioSeen = s.pioSeen := latchEdges_pioSeen s _
@[simp] theorem latchPins_pioAge (o : State) : (latchPins o s).pioAge = s.pioAge := latchEdges_pioAge s _
@[simp] theorem latchPins_serial (o : State) : (latchPins o s).serial = s.serial := latchEdges_serial s _
@[simp] theorem latchPins_video (o : State) : (latchPins o s).video = s.video := latchEdges_video s _
@[simp] theorem latchPins_pins (o : State) : (latchPins o s).pins = s.pins := latchEdges_pins s _
@[simp] theorem latchPins_schedule (o : State) : (latchPins o s).schedule = s.schedule := latchEdges_schedule s _
@[simp] theorem latchPins_outbox (o : State) : (latchPins o s).outbox = s.outbox := latchEdges_outbox s _
@[simp] theorem latchPins_free (o : State) : (latchPins o s).free = s.free := latchEdges_free s _

/-! ### samplePio -/

@[simp] theorem samplePio_variant : (samplePio s).variant = s.variant := by unfold samplePio; split <;> [rfl; (split <;> simp [syncPio])]
@[simp] theorem samplePio_strap : (samplePio s).strap = s.strap := by unfold samplePio; split <;> [rfl; (split <;> simp [syncPio])]
@[simp] theorem samplePio_pc : (samplePio s).pc = s.pc := by unfold samplePio; split <;> [rfl; (split <;> simp [syncPio])]
@[simp] theorem samplePio_npc : (samplePio s).npc = s.npc := by unfold samplePio; split <;> [rfl; (split <;> simp [syncPio])]
@[simp] theorem samplePio_prevPc : (samplePio s).prevPc = s.prevPc := by unfold samplePio; split <;> [rfl; (split <;> simp [syncPio])]
@[simp] theorem samplePio_gr1 : (samplePio s).gr1 = s.gr1 := by unfold samplePio; split <;> [rfl; (split <;> simp [syncPio])]
@[simp] theorem samplePio_shadow : (samplePio s).shadow = s.shadow := by unfold samplePio; split <;> [rfl; (split <;> simp [syncPio])]
@[simp] theorem samplePio_gr : (samplePio s).gr = s.gr := by unfold samplePio; split <;> [rfl; (split <;> simp [syncPio])]
@[simp] theorem samplePio_lr : (samplePio s).lr = s.lr := by unfold samplePio; split <;> [rfl; (split <;> simp [syncPio])]
@[simp] theorem samplePio_vab : (samplePio s).vab = s.vab := by unfold samplePio; split <;> [rfl; (split <;> simp [syncPio])]
@[simp] theorem samplePio_ops : (samplePio s).ops = s.ops := by unfold samplePio; split <;> [rfl; (split <;> simp [syncPio])]
@[simp] theorem samplePio_cps : (samplePio s).cps = s.cps := by unfold samplePio; split <;> [rfl; (split <;> simp [syncPio])]
@[simp] theorem samplePio_cha : (samplePio s).cha = s.cha := by unfold samplePio; split <;> [rfl; (split <;> simp [syncPio])]
@[simp] theorem samplePio_chd : (samplePio s).chd = s.chd := by unfold samplePio; split <;> [rfl; (split <;> simp [syncPio])]
@[simp] theorem samplePio_chc : (samplePio s).chc = s.chc := by unfold samplePio; split <;> [rfl; (split <;> simp [syncPio])]
@[simp] theorem samplePio_rbp : (samplePio s).rbp = s.rbp := by unfold samplePio; split <;> [rfl; (split <;> simp [syncPio])]
@[simp] theorem samplePio_tmc : (samplePio s).tmc = s.tmc := by unfold samplePio; split <;> [rfl; (split <;> simp [syncPio])]
@[simp] theorem samplePio_tmr : (samplePio s).tmr = s.tmr := by unfold samplePio; split <;> [rfl; (split <;> simp [syncPio])]
@[simp] theorem samplePio_pc0 : (samplePio s).pc0 = s.pc0 := by unfold samplePio; split <;> [rfl; (split <;> simp [syncPio])]
@[simp] theorem samplePio_pc1 : (samplePio s).pc1 = s.pc1 := by unfold samplePio; split <;> [rfl; (split <;> simp [syncPio])]
@[simp] theorem samplePio_pc2 : (samplePio s).pc2 = s.pc2 := by unfold samplePio; split <;> [rfl; (split <;> simp [syncPio])]
@[simp] theorem samplePio_ipa : (samplePio s).ipa = s.ipa := by unfold samplePio; split <;> [rfl; (split <;> simp [syncPio])]
@[simp] theorem samplePio_ipb : (samplePio s).ipb = s.ipb := by unfold samplePio; split <;> [rfl; (split <;> simp [syncPio])]
@[simp] theorem samplePio_ipc : (samplePio s).ipc = s.ipc := by unfold samplePio; split <;> [rfl; (split <;> simp [syncPio])]
@[simp] theorem samplePio_q : (samplePio s).q = s.q := by unfold samplePio; split <;> [rfl; (split <;> simp [syncPio])]
@[simp] theorem samplePio_alu : (samplePio s).alu = s.alu := by unfold samplePio; split <;> [rfl; (split <;> simp [syncPio])]
@[simp] theorem samplePio_recent : (samplePio s).recent = s.recent := by unfold samplePio; split <;> [rfl; (split <;> simp [syncPio])]
@[simp] theorem samplePio_fzSettle : (samplePio s).fzSettle = s.fzSettle := by unfold samplePio; split <;> [rfl; (split <;> simp [syncPio])]
@[simp] theorem samplePio_chcMl : (samplePio s).chcMl = s.chcMl := by unfold samplePio; split <;> [rfl; (split <;> simp [syncPio])]
@[simp] theorem samplePio_mode : (samplePio s).mode = s.mode := by unfold samplePio; split <;> [rfl; (split <;> simp [syncPio])]
@[simp] theorem samplePio_warnLatch : (samplePio s).warnLatch = s.warnLatch := by unfold samplePio; split <;> [rfl; (split <;> simp [syncPio])]
@[simp] theorem samplePio_warnSoon : (samplePio s).warnSoon = s.warnSoon := by unfold samplePio; split <;> [rfl; (split <;> simp [syncPio])]
@[simp] theorem samplePio_flight : (samplePio s).flight = s.flight := by unfold samplePio; split <;> [rfl; (split <;> simp [syncPio])]
@[simp] theorem samplePio_multiple : (samplePio s).multiple = s.multiple := by unfold samplePio; split <;> [rfl; (split <;> simp [syncPio])]
@[simp] theorem samplePio_dbg : (samplePio s).dbg = s.dbg := by unfold samplePio; split <;> [rfl; (split <;> simp [syncPio])]
@[simp] theorem samplePio_mem : (samplePio s).mem = s.mem := by unfold samplePio; split <;> [rfl; (split <;> simp [syncPio])]
@[simp] theorem samplePio_romWritable : (samplePio s).romWritable = s.romWritable := by unfold samplePio; split <;> [rfl; (split <;> simp [syncPio])]
@[simp] theorem samplePio_rmct : (samplePio s).rmct = s.rmct := by unfold samplePio; split <;> [rfl; (split <;> simp [syncPio])]
@[simp] theorem samplePio_rmcf : (samplePio s).rmcf = s.rmcf := by unfold samplePio; split <;> [rfl; (split <;> simp [syncPio])]
@[simp] theorem samplePio_drct : (samplePio s).drct = s.drct := by unfold samplePio; split <;> [rfl; (split <;> simp [syncPio])]
@[simp] theorem samplePio_drcf : (samplePio s).drcf = s.drcf := by unfold samplePio; split <;> [rfl; (split <;> simp [syncPio])]
@[simp] theorem samplePio_drm0 : (samplePio s).drm0 = s.drm0 := by unfold samplePio; split <;> [rfl; (split <;> simp [syncPio])]
@[simp] theorem samplePio_drm1 : (samplePio s).drm1 = s.drm1 := by unfold samplePio; split <;> [rfl; (split <;> simp [syncPio])]
@[simp] theorem samplePio_drm2 : (samplePio s).drm2 = s.drm2 := by unfold samplePio; split <;> [rfl; (split <;> simp [syncPio])]
@[simp] theorem samplePio_drm3 : (samplePio s).drm3 = s.drm3 := by unfold samplePio; split <;> [rfl; (split <;> simp [syncPio])]
@[simp] theorem samplePio_pict0 : (samplePio s).pict0 = s.pict0 := by unfold samplePio; split <;> [rfl; (split <;> simp [syncPio])]
@[simp] theorem samplePio_pict1 : (samplePio s).pict1 = s.pict1 := by unfold samplePio; split <;> [rfl; (split <;> simp [syncPio])]
@[simp] theorem samplePio_dma0 : (samplePio s).dma0 = s.dma0 := by unfold samplePio; split <;> [rfl; (split <;> simp [syncPio])]
@[simp] theorem samplePio_dma1 : (samplePio s).dma1 = s.dma1 := by unfold samplePio; split <;> [rfl; (split <;> simp [syncPio])]
@[simp] theorem samplePio_tailAddr : (samplePio s).tailAddr = s.tailAddr := by unfold samplePio; split <;> [rfl; (split <;> simp [syncPio])]
@[simp] theorem samplePio_tailCount : (samplePio s).tailCount = s.tailCount := by unfold samplePio; split <;> [rfl; (split <;> simp [syncPio])]
@[simp] theorem samplePio_poct : (samplePio s).poct = s.poct := by unfold samplePio; split <;> [rfl; (split <;> simp [syncPio])]
@[simp] theorem samplePio_pout : (samplePio s).pout = s.pout := by unfold samplePio; split <;> [rfl; (split <;> simp [syncPio])]
@[simp] theorem samplePio_poen : (samplePio s).poen = s.poen := by unfold samplePio; split <;> [rfl; (split <;> simp [syncPio])]
@[simp] theorem samplePio_serial : (samplePio s).serial = s.serial := by unfold samplePio; split <;> [rfl; (split <;> simp [syncPio])]
@[simp] theorem samplePio_video : (samplePio s).video = s.video := by unfold samplePio; split <;> [rfl; (split <;> simp [syncPio])]
@[simp] theorem samplePio_pins : (samplePio s).pins = s.pins := by unfold samplePio; split <;> [rfl; (split <;> simp [syncPio])]
@[simp] theorem samplePio_schedule : (samplePio s).schedule = s.schedule := by unfold samplePio; split <;> [rfl; (split <;> simp [syncPio])]
@[simp] theorem samplePio_outbox : (samplePio s).outbox = s.outbox := by unfold samplePio; split <;> [rfl; (split <;> simp [syncPio])]

/-! ### announce -/

@[simp] theorem announce_variant (o : State) : (announce o s).variant = s.variant := rfl
@[simp] theorem announce_strap (o : State) : (announce o s).strap = s.strap := rfl
@[simp] theorem announce_pc (o : State) : (announce o s).pc = s.pc := rfl
@[simp] theorem announce_npc (o : State) : (announce o s).npc = s.npc := rfl
@[simp] theorem announce_prevPc (o : State) : (announce o s).prevPc = s.prevPc := rfl
@[simp] theorem announce_gr1 (o : State) : (announce o s).gr1 = s.gr1 := rfl
@[simp] theorem announce_shadow (o : State) : (announce o s).shadow = s.shadow := rfl
@[simp] theorem announce_gr (o : State) : (announce o s).gr = s.gr := rfl
@[simp] theorem announce_lr (o : State) : (announce o s).lr = s.lr := rfl
@[simp] theorem announce_vab (o : State) : (announce o s).vab = s.vab := rfl
@[simp] theorem announce_ops (o : State) : (announce o s).ops = s.ops := rfl
@[simp] theorem announce_cps (o : State) : (announce o s).cps = s.cps := rfl
@[simp] theorem announce_cha (o : State) : (announce o s).cha = s.cha := rfl
@[simp] theorem announce_chd (o : State) : (announce o s).chd = s.chd := rfl
@[simp] theorem announce_chc (o : State) : (announce o s).chc = s.chc := rfl
@[simp] theorem announce_rbp (o : State) : (announce o s).rbp = s.rbp := rfl
@[simp] theorem announce_tmc (o : State) : (announce o s).tmc = s.tmc := rfl
@[simp] theorem announce_tmr (o : State) : (announce o s).tmr = s.tmr := rfl
@[simp] theorem announce_pc0 (o : State) : (announce o s).pc0 = s.pc0 := rfl
@[simp] theorem announce_pc1 (o : State) : (announce o s).pc1 = s.pc1 := rfl
@[simp] theorem announce_pc2 (o : State) : (announce o s).pc2 = s.pc2 := rfl
@[simp] theorem announce_ipa (o : State) : (announce o s).ipa = s.ipa := rfl
@[simp] theorem announce_ipb (o : State) : (announce o s).ipb = s.ipb := rfl
@[simp] theorem announce_ipc (o : State) : (announce o s).ipc = s.ipc := rfl
@[simp] theorem announce_q (o : State) : (announce o s).q = s.q := rfl
@[simp] theorem announce_alu (o : State) : (announce o s).alu = s.alu := rfl
@[simp] theorem announce_recent (o : State) : (announce o s).recent = s.recent := rfl
@[simp] theorem announce_fzSettle (o : State) : (announce o s).fzSettle = s.fzSettle := rfl
@[simp] theorem announce_chcMl (o : State) : (announce o s).chcMl = s.chcMl := rfl
@[simp] theorem announce_mode (o : State) : (announce o s).mode = s.mode := rfl
@[simp] theorem announce_warnLatch (o : State) : (announce o s).warnLatch = s.warnLatch := rfl
@[simp] theorem announce_warnSoon (o : State) : (announce o s).warnSoon = s.warnSoon := rfl
@[simp] theorem announce_flight (o : State) : (announce o s).flight = s.flight := rfl
@[simp] theorem announce_multiple (o : State) : (announce o s).multiple = s.multiple := rfl
@[simp] theorem announce_dbg (o : State) : (announce o s).dbg = s.dbg := rfl
@[simp] theorem announce_mem (o : State) : (announce o s).mem = s.mem := rfl
@[simp] theorem announce_romWritable (o : State) : (announce o s).romWritable = s.romWritable := rfl
@[simp] theorem announce_rmct (o : State) : (announce o s).rmct = s.rmct := rfl
@[simp] theorem announce_rmcf (o : State) : (announce o s).rmcf = s.rmcf := rfl
@[simp] theorem announce_drct (o : State) : (announce o s).drct = s.drct := rfl
@[simp] theorem announce_drcf (o : State) : (announce o s).drcf = s.drcf := rfl
@[simp] theorem announce_drm0 (o : State) : (announce o s).drm0 = s.drm0 := rfl
@[simp] theorem announce_drm1 (o : State) : (announce o s).drm1 = s.drm1 := rfl
@[simp] theorem announce_drm2 (o : State) : (announce o s).drm2 = s.drm2 := rfl
@[simp] theorem announce_drm3 (o : State) : (announce o s).drm3 = s.drm3 := rfl
@[simp] theorem announce_pict0 (o : State) : (announce o s).pict0 = s.pict0 := rfl
@[simp] theorem announce_pict1 (o : State) : (announce o s).pict1 = s.pict1 := rfl
@[simp] theorem announce_ict (o : State) : (announce o s).ict = s.ict := rfl
@[simp] theorem announce_dma0 (o : State) : (announce o s).dma0 = s.dma0 := rfl
@[simp] theorem announce_dma1 (o : State) : (announce o s).dma1 = s.dma1 := rfl
@[simp] theorem announce_tailAddr (o : State) : (announce o s).tailAddr = s.tailAddr := rfl
@[simp] theorem announce_tailCount (o : State) : (announce o s).tailCount = s.tailCount := rfl
@[simp] theorem announce_poct (o : State) : (announce o s).poct = s.poct := rfl
@[simp] theorem announce_pout (o : State) : (announce o s).pout = s.pout := rfl
@[simp] theorem announce_poen (o : State) : (announce o s).poen = s.poen := rfl
@[simp] theorem announce_pioSeen (o : State) : (announce o s).pioSeen = s.pioSeen := rfl
@[simp] theorem announce_pioAge (o : State) : (announce o s).pioAge = s.pioAge := rfl
@[simp] theorem announce_serial (o : State) : (announce o s).serial = s.serial := rfl
@[simp] theorem announce_pport (o : State) : (announce o s).pport = s.pport := rfl
@[simp] theorem announce_video (o : State) : (announce o s).video = s.video := rfl
@[simp] theorem announce_pins (o : State) : (announce o s).pins = s.pins := rfl
@[simp] theorem announce_schedule (o : State) : (announce o s).schedule = s.schedule := rfl
@[simp] theorem announce_free (o : State) : (announce o s).free = s.free := rfl

end Sys2Proof.Machine
end

