-- ==== Sys2Proof/Laws/Registers.lean ====
section
/-! SUPPORT. Reading and writing general-purpose registers: read after write, and the frame of a write. -/

namespace Sys2Proof.Machine

/-- No register is protected in Supervisor mode (10 R27). -/
theorem isProtected_supervisor {s : State} (h : s.sm = true) (n : AbsReg) : isProtected s n = false := by
  simp [isProtected, h]

/-- Nor in any mode while RBP = 0. -/
theorem isProtected_open {s : State} (h : s.rbp = 0) (n : AbsReg) : isProtected s n = false := by
  simp [isProtected, h, bit]

theorem writeReg_of_storage {k : Bool} {n : AbsReg} {v : Word} {s : State} (h : hasStorage n = true) :
    writeReg k n v s = some (s.putReg k n v) := by simp [writeReg, h]

theorem writeReg_no_storage {k : Bool} {n : AbsReg} {v : Word} {s : State} (h : hasStorage n = false) :
    writeReg k n v s = none := by simp [writeReg, h]

/-- A write that answers is the one update putReg, of a register with storage. -/
theorem writeReg_some {k : Bool} {n : AbsReg} {v : Word} {s t : State} (h : writeReg k n v s = some t) :
    hasStorage n = true ∧ t = s.putReg k n v := by
  unfold writeReg at h
  split at h
  · next hs => exact ⟨hs, (Option.some.inj h).symm⟩
  · cases h

/-- Reading a register with storage depends on the register files alone. -/
theorem readReg_congr {s t : State} {n : AbsReg} (i j : Nat) (h : hasStorage n = true) (h1 : t.gr1 = s.gr1)
    (h2 : t.gr = s.gr) (h3 : t.lr = s.lr) : readReg i n t = readReg j n s := by
  unfold readReg
  simp only [h1, h2, h3]
  split
  · rfl
  · split
    · next hn hlt =>
      simp only [hasStorage, Bool.or_eq_true, beq_iff_eq, decide_eq_true_eq] at h
      rcases h with h | h
      · exact absurd h hn
      · omega
    · rfl

/-- The written register reads as the value written. -/
theorem readReg_putReg_same (s : State) (k : Bool) (n : AbsReg) (v : Word) (i : Nat) (h : hasStorage n = true) :
    readReg i n (s.putReg k n v) = v := by
  unfold readReg State.putReg
  by_cases h1 : n = 1#8
  · simp [h1]
  · have h64 : 64 ≤ n.toNat := by
      simpa [hasStorage, h1] using h
    by_cases h2 : n.toNat < 128
    · simp [h1, Nat.not_lt.mpr h64, h2, h64]
    · simp [h1, Nat.not_lt.mpr h64, h2, Nat.le_of_not_lt h2]

/-- Every other register reads as before. -/
theorem readReg_putReg_ne (s : State) (k : Bool) (c n : AbsReg) (v : Word) (i j : Nat) (h : hasStorage n = true)
    (hne : n ≠ c) : readReg i n (s.putReg k c v) = readReg j n s := by
  have hn : n.toNat ≠ c.toNat := fun e => hne (BitVec.eq_of_toNat_eq e)
  by_cases h1 : n = 1#8
  · subst h1
    have hc : c ≠ 1#8 := fun e => hne e.symm
    simp [readReg, State.putReg, hc]
  · have h64 : 64 ≤ n.toNat := by simpa [hasStorage, h1] using h
    have hn8 : n.toNat < 256 := n.isLt
    have hc8 : c.toNat < 256 := c.isLt
    by_cases h2 : n.toNat < 128
    · simp only [readReg, State.putReg, BitVec.ofNat_eq_ofNat, h1, if_false, Nat.not_lt.mpr h64, h2, if_true]
      by_cases hc : 64 ≤ c.toNat ∧ c.toNat < 128
      · have e : c.toNat % 64 ≠ n.toNat % 64 := by omega
        simp [hc, e]
      · simp [hc]
    · simp only [readReg, State.putReg, BitVec.ofNat_eq_ofNat, h1, if_false, Nat.not_lt.mpr h64, h2]
      by_cases hc : 128 ≤ c.toNat
      · have e : c.toNat % 128 ≠ n.toNat % 128 := by omega
        simp [hc, e]
      · simp [hc]

theorem regAt_putReg_same (s : State) (k : Bool) (n : AbsReg) (v : Word) (h : hasStorage n = true) :
    regAt (s.putReg k n v) n = v := readReg_putReg_same s k n v 0 h

/-- Registers, shadow and memory of a state whose register files were copied. -/
theorem oneRegister_of_files {s t : State} {k : Bool} {c : AbsReg} {v : Word} (h : hasStorage c = true)
    (h1 : t.gr1 = (s.putReg k c v).gr1) (h2 : t.gr = (s.putReg k c v).gr) (h3 : t.lr = (s.putReg k c v).lr)
    (h4 : t.shadow = (s.putReg k c v).shadow) : OneRegister k c v s t where
  value := (readReg_congr 0 0 h h1 h2 h3).trans (readReg_putReg_same s k c v 0 h)
  others n hn hne := (readReg_congr 0 0 hn h1 h2 h3).trans (readReg_putReg_ne s k c n v 0 0 hn hne)
  shadow := h4.trans rfl

/-- No register changed when the files were copied. -/
theorem sameRegisters_of_files {s t : State} (h1 : t.gr1 = s.gr1) (h2 : t.gr = s.gr) (h3 : t.lr = s.lr)
    (h4 : t.shadow = s.shadow) : SameRegisters s t where
  regs _ hn := readReg_congr 0 0 hn h1 h2 h3
  shadow := h4

end Sys2Proof.Machine
end

