-- ==== Sys2Proof/Laws/Ops.lean ====
section
/-! SUPPORT. One lemma per shared operation: operand checks, register results, trap entry. -/

namespace Sys2Proof.Machine

/-! ### Checks and operands -/

theorem guarded_open (s : State) (k : Result) : guarded false s k = k := rfl

theorem guarded_closed (s : State) (k : Result) : guarded true s k = trapCurr vProtection s := rfl

/-- A guarded continuation either runs or is a Protection Violation. -/
theorem guarded_next {v : Bool} {s t : State} {k : Result} (h : guarded v s k = .next t) :
    (v = false ∧ k = .next t) ∨ (v = true ∧ trapCurr vProtection s = .next t) := by
  cases v
  · exact .inl ⟨rfl, h⟩
  · exact .inr ⟨rfl, h⟩

theorem ReadsB.resolved {b : SrcB} {s : State} {y : Word} (h : ReadsB b s y) :
    ∃ v, resolveSrc b s = some v ∧ v.isProtected s = false ∧ v.value s = y := by
  cases b with
  | reg rb =>
    obtain ⟨n, hn, ho, hv⟩ := h
    exact ⟨.reg n, by simp [resolveSrc, hn], ho, hv⟩
  | imm i => exact ⟨.const (zext i), rfl, rfl, h.symm⟩

/-- RRM operands that are ready reach the instruction's own effect. -/
theorem withRRM_ready {rc ra : RegNum} {b : SrcB} {s : State} {c : AbsReg} {x y : Word}
    (h : Ready rc ra b s c x y) (k : AbsReg → Word → Word → State → Result) :
    withRRM rc ra b s k = k c x y s.enter := by
  obtain ⟨⟨hc, hco, _⟩, ⟨a, ha, hao, hx⟩, hb⟩ := h
  obtain ⟨v, hv, hvo, hy⟩ := hb.resolved
  simp [withRRM, operandsRRM, hc, ha, hv, Operands3.isProtected, hco, hao, hvo, guarded_open, Operands3.va,
    Operands3.vb, hx, hy]

theorem withAB_ready {ra : RegNum} {b : SrcB} {s : State} {x y : Word} (ha : ReadsA ra s x) (hb : ReadsB b s y)
    (k : Word → Word → State → Result) : withAB ra b s k = k x y s.enter := by
  obtain ⟨a, ha, hao, hx⟩ := ha
  obtain ⟨v, hv, hvo, hy⟩ := hb.resolved
  simp [withAB, operandsAB, ha, hv, Operands2.isProtected, hao, hvo, guarded_open, Operands2.va, Operands2.vb, hx, hy]

theorem withRM_ready {rc : RegNum} {b : SrcB} {s : State} {c : AbsReg} {y : Word} (hc : WritesReg .C rc s c)
    (hb : ReadsB b s y) (k : AbsReg → Word → State → Result) : withRM rc b s k = k c y s.enter := by
  obtain ⟨hc, hco, _⟩ := hc
  obtain ⟨v, hv, hvo, hy⟩ := hb.resolved
  simp [withRM, hc, hv, hco, hvo, guarded_open, hy]

theorem resolveNumbers_ready {rc ra rb : RegNum} {s : State} {c a b : AbsReg} (h : NumbersReady rc ra rb s c a b) :
    resolveNumbers rc ra rb s = some ⟨c, a, b⟩ ∧ Numbers.isProtected ⟨c, a, b⟩ s = false := by
  simp [resolveNumbers, h.numC, h.numA, h.numB, Numbers.isProtected, h.openC, h.openA, h.openB]

theorem writeThen_storage {k : Bool} {c : AbsReg} {v : Word} {s : State} (h : hasStorage c = true)
    (f : State → Result) : writeThen k c v s f = f (s.putReg k c v) := by
  simp [writeThen, writeReg_of_storage h]

theorem writeFinish_storage {k : Bool} {c : AbsReg} {v : Word} {s : State} (h : hasStorage c = true) :
    writeFinish k c v s = .next (finish (s.putReg k c v)) := writeThen_storage h _

/-! ### Completion -/

theorem continuesTo_finishTo {s t : State} (n : Word) (h1 : t.npc = s.npc) (h2 : t.cps = s.cps) :
    ContinuesTo n s (finishTo n t) := ⟨h1, rfl, by simp [h2]⟩

theorem advances_finish {s t : State} (h1 : t.npc = s.npc) (h2 : t.cps = s.cps) : Advances s (finish t) :=
  ⟨h1, by simp [h1], by simp [h2]⟩

/-! ### Trap entry -/

theorem locateRom_congr {s t : State} (h : SameDevices s t) (a : Word) : locateRom t a = locateRom s a := by
  obtain ⟨h2, h3⟩ := h.rom
  simp only [locateRom, h.variant, h2, h3]

theorem locateDram_congr {s t : State} (h : SameDevices s t) (a : Word) : locateDram t a = locateDram s a := by
  obtain ⟨h4, h5⟩ := h.dram
  simp only [locateDram, h.variant, h4, h5]

/-- Where an access goes depends on the part and the memory controllers. -/
theorem locate_congr {s t : State} (h : SameDevices s t) (a : Word) : locate t a = locate s a := by
  obtain ⟨h6, h7, h8, h9⟩ := h.mapping
  simp only [locate, locateVdram, Machine.translate, locateRom_congr h, locateDram_congr h, h.variant, h6, h7, h8, h9]

/-- The vector table as a trap reads it depends on VAB, the memory controllers and memory. -/
theorem vectorFetch_congr {s t : State} (hd : SameDevices s t) (hv : t.vab = s.vab) (hm : t.mem = s.mem)
    (vn : VecNum) : vectorFetch t vn = vectorFetch s vn := by
  simp only [vectorFetch, vectorAddress, fetch, wordAt, locate_congr hd, hd.variant, hv, hm]

/-- CPS.IP depends on the requests and on the enables DA, DI and IM. -/
theorem ipBit_congr {s t : State} (hd : SameDevices s t) (h0 : t.da = s.da) (h1 : t.di = s.di)
    (h2 : t.im = s.im) : ipBit t = ipBit s := by
  have h3 := hd.variant
  have h4 := hd.pins
  have h5 := hd.ict
  simp only [ipBit, intrRequest, intrEnabled, intrInputs, internalRequest, h0, h1, h2, h3, h4, h5]

/-- The asynchronous event of a state depends on CPS, the timer, the pins and ICT. -/
theorem asyncEvent_congr {s t : State} (hd : SameDevices s t) (hc : t.cps = s.cps) (hr : t.tmr = s.tmr) :
    asyncEvent t = asyncEvent s := by
  have h3 := hd.variant
  have h4 := hd.pins
  have h5 := hd.ict
  have r : ∀ n, intrRequest t n = intrRequest s n := fun n => by
    simp only [intrRequest, intrInputs, internalRequest, h3, h4, h5]
  have e : ∀ n, intrEnabled t n = intrEnabled s n := fun n => by
    unfold intrEnabled State.da State.di State.im
    rw [hc]
  have p : ∀ n, trapRequest t n = trapRequest s n := fun n => by simp only [trapRequest, h3, h4]
  have m : timerActive t = timerActive s := by simp only [timerActive, State.da, State.td, hc, hr]
  have d : t.da = s.da := by simp only [State.da, hc]
  have q : t.tp = s.tp := by simp only [State.tp, hc]
  simp only [asyncEvent, r, e, p, m, d, q]

theorem SameDevices.refl (s : State) : SameDevices s s := by constructor <;> simp

theorem settling_of_zero {s : State} (h : s.fzSettle = 0) : s.settling = false := by simp [State.settling, h]

/-- With no change of FZ settling a handler finds the interrupted point. -/
theorem saveContext_settled {s : State} (h : s.fzSettle = 0) : saveContext s = savePcs s := by
  simp [saveContext, settling_of_zero h]

/-- Trap entry in one line. -/
theorem takeTrap_some {vn : VecNum} {s : State} {e : Word} (h : vectorFetch s vn = some e) (hf : s.fzSettle = 0) :
    takeTrap vn s = .next (enterHandler e (saveStatus (savePcs s))) := by simp [takeTrap, h, saveContext_settled hf]

/-- A trap entry that answers is the entry through the fetched vector. -/
theorem takeTrap_next {vn : VecNum} {s t : State} (h : takeTrap vn s = .next t) :
    ∃ e, vectorFetch s vn = some e ∧ t = enterHandler e (saveStatus (saveContext s)) := by
  unfold takeTrap at h
  split at h
  · cases h
  · next e he => exact ⟨e, he, by cases h; rfl⟩

/-- What a trap entry leaves and gives. -/
theorem trapped_of_entry {vn : VecNum} {s : State} {e : Word} (h : vectorFetch s vn = some e) :
    Trapped vn s.npc s.pc s.prevPc s.cps s (enterHandler e (saveStatus (savePcs s))) where
  handler := ⟨e, h, rfl, rfl⟩
  pc0 := rfl
  pc1 := rfl
  pc2 := rfl
  ops := rfl
  cps := rfl

theorem trapCurr_enabled {vn : VecNum} {s : State} (h : CanTrap vn s) :
    trapCurr vn s = takeTrap vn s := by
  simp [trapCurr, h.enabled]

/-- A Curr-kind trap from a state that an instruction has entered is the entry for the instruction's own state. -/
theorem trapCurr_enter {vn : VecNum} {s : State} (h : CanTrap vn s) :
    ∃ e, trapCurr vn s.enter = .next (enterHandler e (saveStatus (savePcs s.enter))) ∧
      TrapsBefore vn s (enterHandler e (saveStatus (savePcs s.enter))) := by
  obtain ⟨e, he⟩ := Option.isSome_iff_exists.mp h.vector
  have hd : s.enter.da = false := h.enabled
  have hv : vectorFetch s.enter vn = some e := he
  obtain ⟨a1, a2, a3, a4, a5, a6⟩ := trapped_of_entry hv
  exact ⟨e, by simp [trapCurr, hd, takeTrap_some hv h.settled], a1, a2, a3, a4, a5, a6⟩

theorem trapCurr_next {vn : VecNum} {s t : State} (h : trapCurr vn s = .next t) :
    s.da = false ∧ takeTrap vn s = .next t := by
  unfold trapCurr at h
  split at h
  · cases h
  · next hd => exact ⟨by simpa using hd, h⟩

/-- A Next-kind trap either completes its instruction (DA = 1, or a WARN at the same time) or is the entry after completion. -/
theorem trapNext_next {vn : VecNum} {s t : State} (h : trapNext vn s = .next t) :
    ((s.da || s.warnSoon) = true ∧ t = finish s) ∨
      (s.da = false ∧ takeTrap vn ((finish s).withSettle s.fzSettle) = .next t) := by
  unfold trapNext at h
  split at h
  · next hd => exact .inl ⟨hd, by cases h; rfl⟩
  · next hd => exact .inr ⟨by simp at hd; exact hd.1, h⟩

theorem trapNext_disabled {vn : VecNum} {s : State} (h : s.da = true) : trapNext vn s = .next (finish s) := by
  simp [trapNext, h]

theorem finish_withSettle {s : State} (h : s.fzSettle = 0) : (finish s).withSettle s.fzSettle = finish s := by
  simp [State.withSettle, finish, finishTo, h]

theorem trapNext_enabled {vn : VecNum} {s : State} (h : s.da = false) (hw : s.warnSoon = false)
    (hf : s.fzSettle = 0) : trapNext vn s = takeTrap vn (finish s) := by
  simp only [trapNext, trapLeaving, finish_withSettle hf, h, hw, Bool.or_self, Bool.false_eq_true, if_false]

theorem sameDevices_finish (s : State) : SameDevices s (finish s) := by constructor <;> simp

/-- The vector of a Next-kind trap is the one before the instruction completed. -/
theorem vectorFetch_finish (vn : VecNum) (s : State) : vectorFetch (finish s) vn = vectorFetch s vn :=
  vectorFetch_congr (sameDevices_finish s) rfl rfl vn

theorem ipBit_finish (s : State) : ipBit (finish s) = ipBit s :=
  ipBit_congr (sameDevices_finish s) (bit_traceCopy_ne _ _ (by decide)) (bit_traceCopy_ne _ _ (by decide))
    (bits_traceCopy_im _)

/-- The entry of a Next-kind trap, in terms of the state whose instruction acted. -/
theorem trapped_after {vn : VecNum} {s : State} {e : Word} (h : vectorFetch s vn = some e) :
    TrapsAfter vn s (enterHandler e (saveStatus (savePcs (finish s)))) := by
  have hz : (finish s).fz = s.fz := bit_traceCopy_ne _ _ (by decide)
  refine ⟨⟨e, h, rfl, rfl⟩, ?_, ?_, ?_, ?_, rfl⟩
  · simp [hz]
  · simp [hz]
  · simp [hz]
  · show putBit (traceCopy s.cps) 14 (ipBit (savePcs (finish s))) = _
    rw [← ipBit_finish s]
    congr 1

/-- A Next-kind trap that can be taken, from a state that differs from `s` by what the instruction did. -/
theorem trapNext_entry {vn : VecNum} {s t : State} (hc : CanTrap vn s) (hd : SameDevices s t) (h1 : t.vab = s.vab)
    (h2 : t.mem = s.mem) (h3 : t.cps = s.cps) (h4 : t.fzSettle = s.fzSettle) (h5 : t.pc = s.pc)
    (h6 : t.npc = s.npc) (h7 : SameSaved s t) :
    ∃ e, trapNext vn t = .next (enterHandler e (saveStatus (savePcs (finish t)))) ∧
      TrapsAfter vn s (enterHandler e (saveStatus (savePcs (finish t)))) := by
  have hv := hc.vector
  rw [← vectorFetch_congr hd h1 h2] at hv
  obtain ⟨e, he⟩ := Option.isSome_iff_exists.mp hv
  have hda : t.da = false := by have := hc.enabled; simpa [State.da, h3] using this
  have hfz : t.fzSettle = 0 := h4.trans hc.settled
  have hi : ipBit t = ipBit s :=
    ipBit_congr hd (by simp [State.da, h3]) (by simp [State.di, h3]) (by simp [State.im, h3])
  have hf : t.fz = s.fz := by simp [State.fz, h3]
  obtain ⟨a1, a2, a3, a4, a5, a6⟩ := trapped_after he
  refine ⟨e, ?_, ?_, ?_, ?_, ?_, ?_, ?_⟩
  · rw [trapNext_enabled hda (hd.warnSoon.trans hc.noWarn) hfz, takeTrap_some (by rw [vectorFetch_finish]; exact he) (by simp [hfz])]
  · rw [← vectorFetch_congr hd h1 h2]; exact a1
  · simpa [hf, h7.pc0, h6] using a2
  · simpa [hf, h7.pc1, h6] using a3
  · simpa [hf, h7.pc2, h5] using a4
  · simpa [h3, hi] using a5
  · simp [h3]

/-- A return with FZ = 1 that has settled finds the frozen registers as they are. -/
theorem openPcs_frozen {s : State} (h : s.fz = true) (hf : s.fzSettle = 0) : s.openPcs = s := by
  simp [State.openPcs, settling_of_zero hf, State.floatPcs, h]

/-- What a return opens: nothing but PC0-PC2, the channel registers and the free values used. -/
theorem openPcs_cases (s : State) : s.openPcs = openSaved s ∨ s.openPcs = s.floatPcs := by
  unfold State.openPcs
  split
  · exact .inl rfl
  · exact .inr rfl

end Sys2Proof.Machine
end

