-- ==== Sys2Proof/Laws/Access.lean ====
section
/-! SUPPORT. Accesses of memory: what `locate` depends on and keeps of an address, what a load of ROM or DRAM and a
store of DRAM do, and one round of a multiple. -/

namespace Sys2Proof.Machine

theorem SameDevices.trans {s t u : State} (a : SameDevices s t) (b : SameDevices t u) : SameDevices s u := by
  obtain ⟨d1, d2, d3, d4, d5, d6, d7, d8, d9, d10, d11, d12, d13, d14, d15, d16, d17, d18, d19⟩ := a
  obtain ⟨e1, e2, e3, e4, e5, e6, e7, e8, e9, e10, e11, e12, e13, e14, e15, e16, e17, e18, e19⟩ := b
  constructor <;> simp_all

/-! ### Addresses -/

/-- The words a store may not change depend on the devices and on npc (20 R134). -/
theorem wordsAhead_congr {s t : State} (h : SameDevices s t) (hn : t.npc = s.npc) : t.wordsAhead = s.wordsAhead := by
  unfold State.wordsAhead State.injecting
  rw [h.dbg, h.mode, hn]

theorem hitsWords_congr {s t : State} (h : SameDevices s t) (l : List Word) (p : Word) :
    hitsWords t l p = hitsWords s l p := by
  simp only [hitsWords, physical, locate_congr h]

theorem hitsNextWords_congr {s t : State} (h : SameDevices s t) (hn : t.npc = s.npc) (p : Word) :
    hitsNextWords t p = hitsNextWords s p := by
  simp only [hitsNextWords, wordsAhead_congr h hn, hitsWords_congr h]

/-- A mapping keeps the low 16 address bits (20 R119). -/
theorem mapOne_low16 {d a p : Word} (h : mapOne d a = some p) : bits p 0 16 = bits a 0 16 := by
  unfold mapOne at h
  split at h
  · have := Option.some.inj h
    subst this
    apply BitVec.eq_of_getLsbD_eq
    intro i hi
    simp only [bits, BitVec.getLsbD_extractLsb', hi, decide_true, Bool.true_and, Nat.zero_add]
    show BitVec.getLsbD (w := 8 + 8 + 16) (0x40#8 ++ BitVec.extractLsb' 0 8 d ++ BitVec.extractLsb' 0 16 a) i = _
    rw [BitVec.getLsbD_append]
    simp [hi]
  · cases h

theorem translate_low16 {s : State} {a p : Word} (h : Machine.translate s a = some p) :
    bits p 0 16 = bits a 0 16 := by
  unfold Machine.translate at h
  repeat' split at h
  all_goals first | (cases h; exact mapOne_low16 ‹_›) | exact mapOne_low16 h

theorem locateDram_self {s : State} {a p : Word} {w : Nat} (h : locateDram s a = .dram p w) : p = a := by
  unfold locateDram at h
  simp only at h
  repeat' split at h
  all_goals first | (cases h; rfl) | cases h

/-- The physical address of a DRAM access keeps the low 16 bits. -/
theorem locate_dram_low16 {s : State} {a p : Word} {w : Nat} (h : locate s a = .dram p w) :
    bits p 0 16 = bits a 0 16 := by
  unfold locate at h
  split at h
  · exfalso
    unfold locateRom at h
    simp only at h
    repeat' split at h
    all_goals cases h
  · rw [locateDram_self h]
  · split at h
    · next e => rw [locateDram_self h]; exact translate_low16 e
    · cases h
  · unfold locateVdram at h
    split at h
    · cases h
    · next hne => exact absurd h (hne _ _)
  all_goals cases h

theorem bits_low_of_low16 {a p : Word} (h : bits p 0 16 = bits a 0 16) : bits p 0 2 = bits a 0 2 := by
  apply BitVec.eq_of_getLsbD_eq
  intro i hi
  have : (bits p 0 16).getLsbD i = (bits a 0 16).getLsbD i := by rw [h]
  simpa [bits, hi, show i < 16 by omega] using this

/-- A word address and the two low bits. -/
theorem toNat_eq_wordAligned (p : Word) : p.toNat = (wordAligned p).toNat + (bits p 0 2).toNat := by
  have e : wordAligned p = (p >>> 2) <<< 2 := by
    apply BitVec.eq_of_getLsbD_eq
    intro i hi
    simp only [wordAligned]
    interval_cases i <;> simp
  have : (wordAligned p).toNat = p.toNat / 4 * 4 := by
    rw [e]
    simp [Nat.shiftLeft_eq, Nat.shiftRight_eq_div_pow]
    have := p.isLt
    omega
  rw [this]
  simp [bits]
  omega

/-- A multiple of 4 is its own word address. -/
theorem wordAligned_of_low {p : Word} (h : bits p 0 2 = 0) : wordAligned p = p := by
  apply BitVec.eq_of_toNat_eq
  have := toNat_eq_wordAligned p
  rw [h] at this
  simpa using this.symm

/-- An instruction word of ROM or DRAM is fetched from its physical address. -/
theorem fetch_of_physical {s : State} {a p : Word} (h : physical s a = some p) (ha : bits a 0 2 = 0) :
    bits p 0 2 = 0 ∧ fetch s a = .word (Memory.word s.mem p.toNat) := by
  unfold physical at h
  unfold fetch wordAt
  split at h
  · next x w e => cases h; exact ⟨ha, by rw [e]; simp only [wordAligned_of_low ha]; rfl⟩
  · next q w e =>
    cases h
    have := (bits_low_of_low16 (locate_dram_low16 e)).trans ha
    exact ⟨this, by rw [e]; simp only [wordAligned_of_low this]; rfl⟩
  · cases h

/-! ### Data -/

theorem optDefined_cases {opt : BitVec 3} (h : optDefined opt = true) : opt = 0 ∨ opt = 1 ∨ opt = 2 := by
  simp only [optDefined, Bool.or_eq_true, beq_iff_eq] at h
  tauto

theorem unaligned_congr {opt : BitVec 3} {a p : Word} (h : bits p 0 2 = bits a 0 2) :
    unaligned opt p = unaligned opt a := by
  have hb : ∀ a, bit a 0 = (bits a 0 2).getLsbD 0 := by simp [bit, bits]
  unfold unaligned
  rw [hb, hb, h]

theorem byteOfWord_memoryWord (m : List Host.Cell) (k : Nat) :
    byteOfWord (Memory.word m k) 0 = Memory.get m k ∧ byteOfWord (Memory.word m k) 1 = Memory.get m (k + 1) ∧
    byteOfWord (Memory.word m k) 2 = Memory.get m (k + 2) ∧
    byteOfWord (Memory.word m k) 3 = Memory.get m (k + 3) := by
  unfold Memory.word
  generalize Memory.get m k = a
  generalize Memory.get m (k + 1) = b
  generalize Memory.get m (k + 2) = c
  generalize Memory.get m (k + 3) = d
  have h : wordOfBytes a b c d = pack a b c d := rfl
  refine ⟨?_, ?_, ?_, ?_⟩ <;>
    (rw [h]
     apply BitVec.eq_of_getLsbD_eq
     intro i hi
     simp only [byteOfWord, BitVec.getLsbD_extractLsb', getLsbD_pack]
     interval_cases i <;> simp)

theorem getLsbD_byteAppend (x y : Byte) (i : Nat) :
    (x ++ y : Half).getLsbD i = if i < 8 then y.getLsbD i else x.getLsbD (i - 8) := by
  show BitVec.getLsbD (w := 8 + 8) (x ++ y) i = _
  rw [BitVec.getLsbD_append]

theorem half_memoryWord (m : List Host.Cell) (k : Nat) :
    (bits (Memory.word m k) 16 16 : Half) = Memory.get m k ++ Memory.get m (k + 1) ∧
    (bits (Memory.word m k) 0 16 : Half) = Memory.get m (k + 2) ++ Memory.get m (k + 3) := by
  unfold Memory.word
  generalize Memory.get m k = a
  generalize Memory.get m (k + 1) = b
  generalize Memory.get m (k + 2) = c
  generalize Memory.get m (k + 3) = d
  have h : wordOfBytes a b c d = pack a b c d := rfl
  refine ⟨?_, ?_⟩ <;>
    (rw [h]
     apply BitVec.eq_of_getLsbD_eq
     intro i hi
     simp only [bits, BitVec.getLsbD_extractLsb', getLsbD_pack, getLsbD_byteAppend]
     interval_cases i <;> simp)

/-- The datum selected from the aligned word is the datum at the byte address (20 R105). -/
theorem selectData_memory {opt : BitVec 3} {sb : Bool} {a p : Word} {m : List Host.Cell}
    (h : optDefined opt = true) (hu : unaligned opt a = false) (hp : bits p 0 2 = bits a 0 2) :
    selectData opt sb a (Memory.word m (wordAligned p).toNat) = memoryDatum opt sb m p.toNat := by
  have hn := toNat_eq_wordAligned p
  rw [hp] at hn
  generalize (wordAligned p).toNat = q at *
  rw [hn]
  have hk : ∀ k : BitVec 2, k = 0 ∨ k = 1 ∨ k = 2 ∨ k = 3 := by decide
  obtain ⟨b0, b1, b2, b3⟩ := byteOfWord_memoryWord m q
  obtain ⟨h0, h1⟩ := half_memoryWord m q
  rcases optDefined_cases h with rfl | rfl | rfl
  · have : bits a 0 2 = 0 := by
      simp only [unaligned] at hu
      simpa using hu
    rw [this]
    simp [selectData, memoryDatum]
    rfl
  · simp only [selectData, memoryDatum, if_true]
    simp only [byteOfWord] at b0 b1 b2 b3
    rcases hk (bits a 0 2) with e | e | e | e <;> rw [e] <;> cases sb <;> simp <;> simp only [sext, zext] <;> simp_all
  · have hb : bit a 0 = false := by
      simp only [unaligned] at hu
      simpa using hu
    have hbit : bit a 1 = (bits a 0 2).getLsbD 1 := by simp [bit, bits]
    have hbit0 : bit a 0 = (bits a 0 2).getLsbD 0 := by simp [bit, bits]
    simp only [selectData, memoryDatum]
    rw [hb] at hbit0
    rcases hk (bits a 0 2) with e | e | e | e <;> rw [e] at hbit hbit0 ⊢ <;> simp at hbit0 <;> rw [hbit] <;>
      cases sb <;> simp <;> simp [h0, h1, sext, zext]

/-- Narrow ROM banks show their rotation only to unaligned accesses (20 R115). -/
theorem narrowView_aligned {w : Nat} {opt : BitVec 3} {a x : Word} (h : optDefined opt = true)
    (hu : unaligned opt a = false) : narrowView w opt a x = x := by
  rcases optDefined_cases h with rfl | rfl | rfl
  · have hz : bits a 0 2 = 0 := by
      simp only [unaligned] at hu
      simpa using hu
    have hb : bit a 1 = false := by
      have hbit : bit a 1 = (bits a 0 2).getLsbD 1 := by simp [bit, bits]
      rw [hbit, hz]
      rfl
    simp only [narrowView, hz, hb, Bool.and_false, if_true]
    split
    · apply BitVec.eq_of_getLsbD_eq
      intro i hi
      simp [hi]
    · simp
  · simp [narrowView]
  · have hb : bit a 0 = false := by
      simp only [unaligned] at hu
      simpa using hu
    simp [narrowView, hb]

theorem accessBase_aligned {opt : BitVec 3} {p : Word} (h : optDefined opt = true) (hu : unaligned opt p = false) :
    accessBase opt p = p := by
  rcases optDefined_cases h with rfl | rfl | rfl
  · have hz : bits p 0 2 = 0 := by
      simp only [unaligned] at hu
      simpa using hu
    exact wordAligned_of_low hz
  · rfl
  · have hb : p.getLsbD 0 = false := by
      simp only [unaligned, bit] at hu
      simpa using hu
    apply BitVec.eq_of_getLsbD_eq
    intro i hi
    show (p &&& 0xFFFFFFFE).getLsbD i = _
    interval_cases i <;> simp_all

theorem storeBytes_length (opt : BitVec 3) (v : Word) : (storeBytes opt v).length = optBytes opt := by
  unfold storeBytes optBytes
  repeat' split
  all_goals rfl

/-- The stored bytes are the low bytes of the word. -/
theorem holdsDatum_putBytes {opt : BitVec 3} {m : List Host.Cell} (hm : Memory.wf m = true) (k : Nat) (v : Word)
    (h : optDefined opt = true) : HoldsDatum opt (Memory.putBytes m k (storeBytes opt v)) k v := by
  intro j hj
  rw [Memory.get_putBytes_inside hm k _ j (by rw [storeBytes_length]; exact hj)]
  rcases optDefined_cases h with rfl | rfl | rfl
  · have : j = 0 ∨ j = 1 ∨ j = 2 ∨ j = 3 := by simp [optBytes] at hj; omega
    rcases this with rfl | rfl | rfl | rfl <;> rfl
  · have : j = 0 := by simp [optBytes] at hj; omega
    subst this
    rfl
  · have : j = 0 ∨ j = 1 := by simp [optBytes] at hj; omega
    rcases this with rfl | rfl <;> rfl

/-! ### Accesses -/

/-- A word of a 16-bit DRAM bank is only open where it is unaligned (93 U17). -/
theorem dramWord_aligned {s : State} {opt : BitVec 3} {a p : Word} {w : Nat} (hu : unaligned opt a = false)
    (h : locate s a = .dram p w) : (w = 16 && opt == 0 && unaligned opt p) = false := by
  rw [unaligned_congr (bits_low_of_low16 (locate_dram_low16 h)), hu, Bool.and_false]

/-- A load of an aligned datum of ROM or DRAM reads the bytes at its physical address. -/
theorem memRead_physical {s : State} {opt : BitVec 3} {sb : Bool} {a p : Word} (h : optDefined opt = true)
    (hu : unaligned opt a = false) (hp : physical s a = some p) :
    memRead s opt sb a = .done (memoryDatum opt sb s.mem p.toNat, s) := by
  have h6 : opt ≠ 6#3 := by rintro rfl; cases h
  have hm : locate s a ≠ .miss := by intro e; simp [physical, e] at hp
  have ht : accessTrap s opt a = none := by simp [accessTrap, hm, hu]
  unfold memRead
  simp only [show ¬ opt = 6 from h6, if_false, h, Bool.not_true, Bool.false_eq_true, ht]
  unfold physical at hp
  unfold loadFrom wordAt cellKey
  split at hp
  · next x w e => cases hp; rw [e]; simp only [narrowView_aligned h hu, selectData_memory h hu rfl]
  · next q w e =>
    cases hp
    rw [e]
    simp only [dramWord_aligned hu e, Bool.false_eq_true, if_false,
      selectData_memory h hu (bits_low_of_low16 (locate_dram_low16 e))]
  · cases hp

/-- The lanes of a word driven with the low byte or half-word in every position hold that datum (20 R106). -/
theorem storeBytes_driven (opt : BitVec 3) (p v : Word) :
    storeBytes opt (selectData opt false p (replicateData opt v)) = storeBytes opt v := by
  have hk : ∀ k : BitVec 2, k = 0 ∨ k = 1 ∨ k = 2 ∨ k = 3 := by decide
  have hh : ∀ (h : Half) i, (h ++ h : Word).getLsbD i = if i < 16 then h.getLsbD i else h.getLsbD (i - 16) := by
    intro h i
    show BitVec.getLsbD (w := 16 + 16) (h ++ h) i = _
    rw [BitVec.getLsbD_append]
  have hb : ∀ b : Byte, (b ++ b ++ b ++ b : Word) = pack b b b b := fun _ => rfl
  unfold storeBytes
  by_cases h1 : opt = 1
  · subst h1
    simp only [if_true, selectData, replicateData, List.cons.injEq, and_true, Bool.false_eq_true, if_false]
    apply BitVec.eq_of_getLsbD_eq
    intro i hi
    rw [hb]
    rcases hk (bits p 0 2) with e | e | e | e <;> rw [e] <;>
      simp only [bits, zext, BitVec.getLsbD_extractLsb', BitVec.getLsbD_setWidth, getLsbD_pack] <;>
      interval_cases i <;> simp
  · by_cases h2 : opt = 2
    · subst h2
      have hs : ∀ h : Half, bits (h ++ h : Word) 0 16 = h ∧ bits (h ++ h : Word) 16 16 = h := by
        intro h
        constructor <;> apply BitVec.eq_of_getLsbD_eq <;> intro i hi <;>
          simp only [bits, BitVec.getLsbD_extractLsb', hi, decide_true, Bool.true_and, hh] <;>
          [rw [if_pos (by omega)]; rw [if_neg (by omega)]] <;> congr 1 <;> omega
      have hd : selectData 2 false p (replicateData 2 v) = zext (bits v 0 16 : Half) := by
        unfold selectData replicateData
        simp only [h1, if_false, if_true, Bool.false_eq_true, (hs _).1, (hs _).2, ite_self]
      rw [hd]
      simp only [h1, if_false, if_true, List.cons.injEq, and_true]
      constructor <;> apply BitVec.eq_of_getLsbD_eq <;> intro i hi <;>
        simp only [bits, zext, BitVec.getLsbD_extractLsb', BitVec.getLsbD_setWidth] <;> interval_cases i <;> simp
    · simp only [h1, h2, if_false, selectData, replicateData]

theorem storeAt_driven (s : State) (opt : BitVec 3) (p v : Word) :
    s.storeAt opt p (selectData opt false p (replicateData opt v)) = s.storeAt opt p v := by
  simp only [State.storeAt, storeBytes_driven]

/-- A store of an aligned datum to DRAM, clear of the next instruction words. -/
theorem memWrite_dram {s : State} {opt : BitVec 3} {a v p : Word} {w : Nat} (h : optDefined opt = true)
    (hu : unaligned opt a = false) (hp : locate s a = .dram p w) (hn : hitsNextWords s p = false) :
    memWrite s opt a v = .done (s.storeAt opt p v) := by
  have h6 : opt ≠ 6#3 := by rintro rfl; cases h
  have ht : accessTrap s opt a = none := by simp [accessTrap, hp, hu]
  unfold memWrite memStore
  simp only [show ¬ opt = 6 from h6, if_false, h, Bool.not_true, Bool.false_eq_true, ht]
  unfold storeTo
  have hn' : hitsWords s s.wordsAhead p = false := hn
  simp only [hp, dramWord_aligned hu hp, Bool.false_eq_true, if_false, storeMem, hn', storeAt_driven]

theorem memRead_trap {s : State} {opt : BitVec 3} {sb : Bool} {a : Word} {vn : VecNum} (h : optDefined opt = true)
    (ht : accessTrap s opt a = some vn) : memRead s opt sb a = .trap vn := by
  have h6 : opt ≠ 6#3 := by rintro rfl; cases h
  unfold memRead
  simp only [show ¬ opt = 6 from h6, if_false, h, Bool.not_true, Bool.false_eq_true, ht]

theorem memWrite_trap {s : State} {opt : BitVec 3} {v a : Word} {vn : VecNum} (h : optDefined opt = true)
    (ht : accessTrap s opt a = some vn) : memWrite s opt a v = .trap vn := by
  have h6 : opt ≠ 6#3 := by rintro rfl; cases h
  unfold memWrite memStore
  simp only [show ¬ opt = 6 from h6, if_false, h, Bool.not_true, Bool.false_eq_true, ht]

/-- Operands that are ready reach the access. -/
theorem withAccess_ready {cntl : BitVec 8} {ra : RegNum} {b : SrcB} {s : State} {n : AbsReg} {a : Word}
    (h1 : resolve .A ra s = some n) (h2 : isProtected s n = false) (hb : ReadsB b s a) (hm : s.chcMl = false)
    (k : AbsReg → Word → State → Result) :
    withAccess cntl ra b s k = k n a ((s.enter.setBp (cntlSb cntl)).launch none) := by
  obtain ⟨v, hv, hvo, hy⟩ := hb.resolved
  simp only [withAccess, operandsAB, h1, hv, Operands2.isProtected, h2, hvo, Bool.or_self, guarded_open, hm,
    Bool.false_eq_true, if_false, Operands2.vb, hy]

/-- The physical address of a datum depends on the devices. -/
theorem physical_congr {s t : State} (h : SameDevices s t) (a : Word) : physical t a = physical s a := by
  simp only [physical, locate_congr h]

theorem sameDevices_accessing (sb : Bool) (s : State) : SameDevices s ((s.enter.setBp sb).launch none) := by
  constructor <;> simp

theorem sameDevices_record (a d c : Word) (s : State) : SameDevices s (s.record a d c) := by constructor <;> simp

theorem not_scan_of_defined {opt : BitVec 3} (h : optDefined opt = true) : (opt == 6) = false := by
  rcases optDefined_cases h with rfl | rfl | rfl <;> rfl

/-- A load of an aligned datum of ROM or DRAM: `t` is the state that the access works on. -/
theorem runLoad_ready {cntl : BitVec 8} {ra : RegNum} {b : SrcB} {s t : State} {n : AbsReg} {a p : Word}
    (hw : WritesReg .A ra s n) (hb : ReadsB b s a) (hm : s.chcMl = false) (ho : optDefined (cntlOpt cntl) = true)
    (hu : unaligned (cntlOpt cntl) a = false) (hp : physical s a = some p)
    (ht : (s.enter.setBp (cntlSb cntl)).launch none = t) :
    ∃ f, runLoad cntl ra b s =
      .next (finish (((t.record a (t.freeWord 7) (chcWord cntl s.cr true false false n false)).launch f).putReg false n
        (memoryDatum (cntlOpt cntl) (cntlSb cntl) s.mem p.toNat))) := by
  have hcr : t.cr = s.cr := by subst ht; rfl
  have hd : SameDevices s t := ht ▸ sameDevices_accessing _ _
  have hl : ∀ c, physical (t.record a (t.freeWord 7) c) a = some p := fun c =>
    (physical_congr (hd.trans (sameDevices_record _ _ _ _)) a).trans hp
  have hmem : ∀ c, (t.record a (t.freeWord 7) c).mem = s.mem := by intro c; subst ht; simp
  unfold runLoad
  rw [withAccess_ready hw.number hw.isOpen hb hm, ht]
  dsimp only
  rw [hcr, memRead_physical (sb := cntlSb cntl) ho hu (hl _), hmem]
  simp only [Access.andThen, loadFinish, not_scan_of_defined ho, Bool.and_false, Bool.false_eq_true, if_false]
  exact ⟨_, writeFinish_storage hw.storage⟩

/-- A store of an aligned datum to DRAM. -/
theorem runStore_ready {cntl : BitVec 8} {ra : RegNum} {b : SrcB} {s t : State} {n : AbsReg} {a p : Word} {w : Nat}
    (h1 : resolve .A ra s = some n) (h2 : isProtected s n = false) (hb : ReadsB b s a) (hm : s.chcMl = false)
    (ho : optDefined (cntlOpt cntl) = true) (hu : unaligned (cntlOpt cntl) a = false) (hp : locate s a = .dram p w)
    (hn : hitsNextWords s p = false) (ht : (s.enter.setBp (cntlSb cntl)).launch none = t) :
    ∃ f, runStore cntl ra b s =
      .next (finish (((t.record a (replicateData (cntlOpt cntl) (readReg 3 n s))
        (chcWord cntl s.cr false false false n false)).storeAt (cntlOpt cntl) p (readReg 3 n s)).launch f)) := by
  have hcr : t.cr = s.cr := by subst ht; rfl
  have hnp : t.npc = s.npc := by subst ht; rfl
  have hd : ∀ d c, SameDevices s (t.record a d c) := fun d c =>
    (ht ▸ sameDevices_accessing _ _ : SameDevices s t).trans (sameDevices_record _ _ _ _)
  have hl : ∀ d c, locate (t.record a d c) a = .dram p w := fun d c => (locate_congr (hd d c) a).trans hp
  have hh : ∀ d c, hitsNextWords (t.record a d c) p = false := fun d c =>
    (hitsNextWords_congr (hd d c) hnp p).trans hn
  unfold runStore
  rw [withAccess_ready h1 h2 hb hm, ht]
  dsimp only
  rw [hcr, memWrite_dram ho hu (hl _ _) (hh _ _)]
  exact ⟨_, rfl⟩

/-- LOADSET of an aligned datum of DRAM. -/
theorem runLoadSet_ready {cntl : BitVec 8} {ra : RegNum} {b : SrcB} {s t : State} {n : AbsReg} {a p : Word} {w : Nat}
    (hw : WritesReg .A ra s n) (hb : ReadsB b s a) (hm : s.chcMl = false) (ho : optDefined (cntlOpt cntl) = true)
    (hu : unaligned (cntlOpt cntl) a = false) (hp : locate s a = .dram p w) (hn : hitsNextWords s p = false)
    (ht : (s.enter.setBp (cntlSb cntl)).launch none = t) :
    ∃ f, runLoadSet cntl ra b s =
      .next (finish ((((t.record a (t.freeWord 7) (chcWord cntl s.cr true false true n false)).storeAt (cntlOpt cntl) p
        0xFFFFFFFF).launch f).putReg false n (memoryDatum (cntlOpt cntl) (cntlSb cntl) s.mem p.toNat))) := by
  have hcr : t.cr = s.cr := by subst ht; rfl
  have hnp : t.npc = s.npc := by subst ht; rfl
  have hd : ∀ d c, SameDevices s (t.record a d c) := fun d c =>
    (ht ▸ sameDevices_accessing _ _ : SameDevices s t).trans (sameDevices_record _ _ _ _)
  have hs : physical s a = some p := by simp [physical, hp]
  have hl : ∀ c, physical (t.record a (t.freeWord 7) c) a = some p := fun c => (physical_congr (hd _ c) a).trans hs
  have hl' : ∀ c, locate (t.record a (t.freeWord 7) c) a = .dram p w := fun c => (locate_congr (hd _ c) a).trans hp
  have hh : ∀ c, hitsNextWords (t.record a (t.freeWord 7) c) p = false := fun c =>
    (hitsNextWords_congr (hd _ c) hnp p).trans hn
  have hmem : ∀ c, (t.record a (t.freeWord 7) c).mem = s.mem := by intro c; subst ht; simp
  unfold runLoadSet
  rw [withAccess_ready hw.number hw.isOpen hb hm, ht]
  dsimp only
  rw [hcr, memRead_physical (sb := cntlSb cntl) ho hu (hl _), hmem]
  simp only [Access.andThen]
  rw [memWrite_dram ho hu (hl' _) (hh _)]
  simp only [loadFinish, not_scan_of_defined ho, Bool.and_false, Bool.false_eq_true, if_false]
  exact ⟨_, writeFinish_storage hw.storage⟩

/-! ### Multiples -/

/-- A word loaded into a register by a multiple. -/
theorem transfer_load {s : State} {l : List Word} {n : AbsReg} {a p : Word} (hs : hasStorage n = true)
    (ha : bits a 0 2 = 0) (hp : physical s a = some p) :
    transfer true l n a s = .done (s.putReg false n (Memory.word s.mem p.toNat)) := by
  have := memRead_physical (s := s) (opt := 0) (sb := false) rfl (by simp [unaligned, ha]) hp
  simp only [transfer, this, if_true, writeReg_of_storage hs]
  rfl

/-- A word stored from a register by a multiple. -/
theorem transfer_store {s : State} {n : AbsReg} {a p : Word} {w : Nat} (ha : bits a 0 2 = 0)
    (hl : locate s a = .dram p w) (hn : hitsNextWords s p = false) :
    transfer false s.wordsAhead n a s = .done (s.storeAt 0 p (readReg 3 n s)) := by
  have := memWrite_dram (opt := 0) (v := readReg 3 n s) rfl (by simp [unaligned, ha]) hl hn
  simp only [transfer, Bool.false_eq_true, if_false]
  exact this

/-- DMA requests depend on the devices. -/
theorem busTaken_congr {s t : State} (h : SameDevices s t) : busTaken t = busTaken s := by
  obtain ⟨h1, h2, _, _⟩ := h.dma
  obtain ⟨h3, h4, h5⟩ := h.ports
  have h6 := h.pins
  have h7 := h.variant
  have c : ∀ x, t.channel x = s.channel x := fun x => by simp only [State.channel, h1, h2]
  have q : ∀ x, requestersOf t x = requestersOf s x := fun x => by simp only [requestersOf, h3, h4, h5]
  have e : ∀ x, externalRequest t x = externalRequest s x := fun x => by
    simp only [externalRequest, c, h6, h7]
  have r : ∀ k : Requester, k.requests t = k.requests s := fun k => by
    cases k <;> simp only [Requester.requests, h3, h4, h5]
  simp only [busTaken, channelReady, c, q, e, r]

/-- With nothing scheduled a gap passes at once. -/
theorem gapBefore_quiet {s : State} (h1 : s.schedule = []) : gapBefore s = .go s := by
  rw [gapBefore, h1]; rfl

/-- Where a DMA channel has the bus before the next transfer, the multiple waits (20 R131). -/
theorem transfersLeft_waits {load : Bool} {cntl : BitVec 8} {q : Sequence} {left : Nat} {n : AbsReg} {a : Word}
    {s : State} (h1 : s.schedule = []) (hb : busTaken s = true) :
    transfersLeft load cntl q (left + 1) n a s =
      .next { s.reserve with multiple := some ⟨load, cntl, q, left + 1, n, a⟩ } := by
  have hb' : busTaken { s.reserve with multiple := some ⟨load, cntl, q, left + 1, n, a⟩ } = true := hb
  rw [transfersLeft, gapBefore_quiet (by exact h1)]
  simp only [hb', if_true]

/-- A latched WARN ends a multiple before its next transfer, whether or not the next register is protected (60 R467). -/
theorem transfersLeft_warn {load : Bool} {cntl : BitVec 8} {q : Sequence} {left : Nat} {n : AbsReg} {a : Word}
    {s : State} (h1 : s.schedule = []) (hb : busTaken s = false) (hw : s.warnLatch = true) :
    transfersLeft load cntl q (left + 1) n a s = .next (cutShort q (recordTransfer load cntl left n a s.reserve)) := by
  have hb' : busTaken { s.reserve with multiple := some ⟨load, cntl, q, left + 1, n, a⟩ } = false := hb
  have hw' : (recordTransfer load cntl left n a s.reserve).warnLatch = true := hw
  have hr : { { s.reserve with multiple := some (⟨load, cntl, q, left + 1, n, a⟩ : Multiple) } with
      multiple := s.multiple } = s.reserve := rfl
  rw [transfersLeft, gapBefore_quiet (by exact h1)]
  simp only [hr, hb', hw', Bool.false_eq_true, if_false, if_true]

/-- One transfer of a multiple where no other agent, event or WARN intervenes. -/
theorem transfersLeft_round {load : Bool} {cntl : BitVec 8} {q : Sequence} {left : Nat} {n : AbsReg}
    {a : Word} {s u : State} (h1 : s.schedule = []) (hb : busTaken s = false) (h2 : isProtected s n = false)
    (h3 : s.warnLatch = false) (h4 : asyncEvent s = none)
    (h5 : transfer load (q.ahead (recordTransfer load cntl left n a s.reserve)) n a
      (recordTransfer load cntl left n a s.reserve) = .done u) :
    transfersLeft load cntl q (left + 1) n a s = transfersLeft load cntl q left (nextReg n) (a + 4) u := by
  have e : SameDevices s (recordTransfer load cntl left n a s.reserve) := by
    constructor <;> simp [recordTransfer]
  have hb' : busTaken { s.reserve with multiple := some ⟨load, cntl, q, left + 1, n, a⟩ } = false := hb
  have hp : isProtected { s.reserve with multiple := some ⟨load, cntl, q, left + 1, n, a⟩ } n = false := h2
  have hw : (recordTransfer load cntl left n a s.reserve).warnLatch = false := h3
  have ha : q.event (recordTransfer load cntl left n a s.reserve) = none := by
    simp only [Sequence.event, (asyncEvent_congr e rfl rfl).trans h4]
  have hr : { { s.reserve with multiple := some (⟨load, cntl, q, left + 1, n, a⟩ : Multiple) } with
      multiple := s.multiple } = s.reserve := rfl
  rw [transfersLeft, gapBefore_quiet (by exact h1)]
  simp only [hr, hb', hp, hw, ha, h5, Bool.false_eq_true, if_false]

/-- A LOADM or STOREM that answers a next state: the Protection Violation of one of the registers it names, or its
transfers. -/
theorem runMultiple_next {load : Bool} {cntl : BitVec 8} {ra : RegNum} {b : SrcB} {s u : State}
    (h : runMultiple load cntl ra b s = .next u) :
    ∃ n v, resolve .A ra s = some n ∧ resolveSrc b s = some v ∧
      ((Operands2.isProtected ⟨n, v⟩ s = true ∧ trapCurr vProtection s = .next u) ∨
        (Operands2.isProtected ⟨n, v⟩ s = false ∧ s.chcMl = false ∧ cntlOpt cntl = 0 ∧ s.fz = false ∧
          s.recent.multi = false ∧
          transfersLeft load cntl .fresh (s.cr.toNat + 1) n (v.value s)
            ((s.enter.setBp (cntlSb cntl)).launch none).markMultiple = .next u)) := by
  unfold runMultiple operandsAB at h
  split at h
  · cases h
  next o e =>
    split at e
    next n v hn hv =>
      cases e
      refine ⟨n, v, hn, hv, ?_⟩
      obtain ⟨ho, h⟩ | h := guarded_next h
      · split_ifs at h with h1 h2 h3 h4
        exact .inr ⟨ho, by simpa using h1, not_not.mp h2, by simpa using h3, by simpa using h4, h⟩
      · exact .inl h
    · cases e

end Sys2Proof.Machine
end

