-- ==== Sys2Proof/Laws/PerInstr.lean ====
section
/-! SUPPORT. Facts that hold of every instruction, one lemma per constructor. -/

namespace Sys2Proof.Laws

/-- The operation code an instruction is encoded with is assigned to an instruction of the table: it is neither reserved
for emulation (30 R181) nor unassigned (30 R182). -/
def AssignedCode.Statement (i : Instr) : Prop :=
  (findRow opRows (opField (encode i)).toNat).isSome = true

/-- The operation code of a packed word. -/
theorem assigned_pack {o c a b : BitVec 8} (h : (findRow opRows o.toNat).isSome = true) :
    (findRow opRows (opField (pack o c a b)).toNat).isSome = true := by rwa [opField_pack]

/-- A row owns an even code and, with the M bit, the odd one after it. -/
theorem assigned_src {o : BitVec 8} (b : SrcB) (h0 : (findRow opRows (o ||| 0).toNat).isSome = true)
    (h1 : (findRow opRows (o ||| 1).toNat).isSome = true) : (findRow opRows (o ||| b.m).toNat).isSome = true := by
  cases b
  · exact h0
  · exact h1

/-- The same for the A bit. -/
theorem assigned_jump {o : BitVec 8} (a : Bool) (h0 : (findRow opRows (o ||| 0).toNat).isSome = true)
    (h1 : (findRow opRows (o ||| 1).toNat).isSome = true) : (findRow opRows (o ||| aBit a).toNat).isSome = true := by
  cases a
  · exact h0
  · exact h1

theorem AssignedCode.constn (ra : RegNum) (imm : BitVec 16) :
    AssignedCode.Statement (Instr.constn ra imm) :=
  assigned_pack (o := 0x01#8) rfl

theorem AssignedCode.consth (ra : RegNum) (imm : BitVec 16) :
    AssignedCode.Statement (Instr.consth ra imm) :=
  assigned_pack (o := 0x02#8) rfl

theorem AssignedCode.const (ra : RegNum) (imm : BitVec 16) :
    AssignedCode.Statement (Instr.const ra imm) :=
  assigned_pack (o := 0x03#8) rfl

theorem AssignedCode.mtsrim (sa : SprNum) (imm : BitVec 16) :
    AssignedCode.Statement (Instr.mtsrim sa imm) :=
  assigned_pack (o := 0x04#8) rfl

theorem AssignedCode.loadl (cntl : BitVec 8) (ra : RegNum) (b : SrcB) :
    AssignedCode.Statement (Instr.loadl cntl ra b) :=
  assigned_pack (assigned_src (o := 0x06#8) b rfl rfl)

theorem AssignedCode.clz (rc : RegNum) (b : SrcB) :
    AssignedCode.Statement (Instr.clz rc b) :=
  assigned_pack (assigned_src (o := 0x08#8) b rfl rfl)

theorem AssignedCode.exbyte (rc ra : RegNum) (b : SrcB) :
    AssignedCode.Statement (Instr.exbyte rc ra b) :=
  assigned_pack (assigned_src (o := 0x0A#8) b rfl rfl)

theorem AssignedCode.inbyte (rc ra : RegNum) (b : SrcB) :
    AssignedCode.Statement (Instr.inbyte rc ra b) :=
  assigned_pack (assigned_src (o := 0x0C#8) b rfl rfl)

theorem AssignedCode.storel (cntl : BitVec 8) (ra : RegNum) (b : SrcB) :
    AssignedCode.Statement (Instr.storel cntl ra b) :=
  assigned_pack (assigned_src (o := 0x0E#8) b rfl rfl)

theorem AssignedCode.adds (rc ra : RegNum) (b : SrcB) :
    AssignedCode.Statement (Instr.adds rc ra b) :=
  assigned_pack (assigned_src (o := 0x10#8) b rfl rfl)

theorem AssignedCode.addu (rc ra : RegNum) (b : SrcB) :
    AssignedCode.Statement (Instr.addu rc ra b) :=
  assigned_pack (assigned_src (o := 0x12#8) b rfl rfl)

theorem AssignedCode.add (rc ra : RegNum) (b : SrcB) :
    AssignedCode.Statement (Instr.add rc ra b) :=
  assigned_pack (assigned_src (o := 0x14#8) b rfl rfl)

theorem AssignedCode.load (cntl : BitVec 8) (ra : RegNum) (b : SrcB) :
    AssignedCode.Statement (Instr.load cntl ra b) :=
  assigned_pack (assigned_src (o := 0x16#8) b rfl rfl)

theorem AssignedCode.addcs (rc ra : RegNum) (b : SrcB) :
    AssignedCode.Statement (Instr.addcs rc ra b) :=
  assigned_pack (assigned_src (o := 0x18#8) b rfl rfl)

theorem AssignedCode.addcu (rc ra : RegNum) (b : SrcB) :
    AssignedCode.Statement (Instr.addcu rc ra b) :=
  assigned_pack (assigned_src (o := 0x1A#8) b rfl rfl)

theorem AssignedCode.addc (rc ra : RegNum) (b : SrcB) :
    AssignedCode.Statement (Instr.addc rc ra b) :=
  assigned_pack (assigned_src (o := 0x1C#8) b rfl rfl)

theorem AssignedCode.store (cntl : BitVec 8) (ra : RegNum) (b : SrcB) :
    AssignedCode.Statement (Instr.store cntl ra b) :=
  assigned_pack (assigned_src (o := 0x1E#8) b rfl rfl)

theorem AssignedCode.subs (rc ra : RegNum) (b : SrcB) :
    AssignedCode.Statement (Instr.subs rc ra b) :=
  assigned_pack (assigned_src (o := 0x20#8) b rfl rfl)

theorem AssignedCode.subu (rc ra : RegNum) (b : SrcB) :
    AssignedCode.Statement (Instr.subu rc ra b) :=
  assigned_pack (assigned_src (o := 0x22#8) b rfl rfl)

theorem AssignedCode.sub (rc ra : RegNum) (b : SrcB) :
    AssignedCode.Statement (Instr.sub rc ra b) :=
  assigned_pack (assigned_src (o := 0x24#8) b rfl rfl)

theorem AssignedCode.loadset (cntl : BitVec 8) (ra : RegNum) (b : SrcB) :
    AssignedCode.Statement (Instr.loadset cntl ra b) :=
  assigned_pack (assigned_src (o := 0x26#8) b rfl rfl)

theorem AssignedCode.subcs (rc ra : RegNum) (b : SrcB) :
    AssignedCode.Statement (Instr.subcs rc ra b) :=
  assigned_pack (assigned_src (o := 0x28#8) b rfl rfl)

theorem AssignedCode.subcu (rc ra : RegNum) (b : SrcB) :
    AssignedCode.Statement (Instr.subcu rc ra b) :=
  assigned_pack (assigned_src (o := 0x2A#8) b rfl rfl)

theorem AssignedCode.subc (rc ra : RegNum) (b : SrcB) :
    AssignedCode.Statement (Instr.subc rc ra b) :=
  assigned_pack (assigned_src (o := 0x2C#8) b rfl rfl)

theorem AssignedCode.cpbyte (rc ra : RegNum) (b : SrcB) :
    AssignedCode.Statement (Instr.cpbyte rc ra b) :=
  assigned_pack (assigned_src (o := 0x2E#8) b rfl rfl)

theorem AssignedCode.subrs (rc ra : RegNum) (b : SrcB) :
    AssignedCode.Statement (Instr.subrs rc ra b) :=
  assigned_pack (assigned_src (o := 0x30#8) b rfl rfl)

theorem AssignedCode.subru (rc ra : RegNum) (b : SrcB) :
    AssignedCode.Statement (Instr.subru rc ra b) :=
  assigned_pack (assigned_src (o := 0x32#8) b rfl rfl)

theorem AssignedCode.subr (rc ra : RegNum) (b : SrcB) :
    AssignedCode.Statement (Instr.subr rc ra b) :=
  assigned_pack (assigned_src (o := 0x34#8) b rfl rfl)

theorem AssignedCode.loadm (cntl : BitVec 8) (ra : RegNum) (b : SrcB) :
    AssignedCode.Statement (Instr.loadm cntl ra b) :=
  assigned_pack (assigned_src (o := 0x36#8) b rfl rfl)

theorem AssignedCode.subrcs (rc ra : RegNum) (b : SrcB) :
    AssignedCode.Statement (Instr.subrcs rc ra b) :=
  assigned_pack (assigned_src (o := 0x38#8) b rfl rfl)

theorem AssignedCode.subrcu (rc ra : RegNum) (b : SrcB) :
    AssignedCode.Statement (Instr.subrcu rc ra b) :=
  assigned_pack (assigned_src (o := 0x3A#8) b rfl rfl)

theorem AssignedCode.subrc (rc ra : RegNum) (b : SrcB) :
    AssignedCode.Statement (Instr.subrc rc ra b) :=
  assigned_pack (assigned_src (o := 0x3C#8) b rfl rfl)

theorem AssignedCode.storem (cntl : BitVec 8) (ra : RegNum) (b : SrcB) :
    AssignedCode.Statement (Instr.storem cntl ra b) :=
  assigned_pack (assigned_src (o := 0x3E#8) b rfl rfl)

theorem AssignedCode.cplt (rc ra : RegNum) (b : SrcB) :
    AssignedCode.Statement (Instr.cplt rc ra b) :=
  assigned_pack (assigned_src (o := 0x40#8) b rfl rfl)

theorem AssignedCode.cpltu (rc ra : RegNum) (b : SrcB) :
    AssignedCode.Statement (Instr.cpltu rc ra b) :=
  assigned_pack (assigned_src (o := 0x42#8) b rfl rfl)

theorem AssignedCode.cple (rc ra : RegNum) (b : SrcB) :
    AssignedCode.Statement (Instr.cple rc ra b) :=
  assigned_pack (assigned_src (o := 0x44#8) b rfl rfl)

theorem AssignedCode.cpleu (rc ra : RegNum) (b : SrcB) :
    AssignedCode.Statement (Instr.cpleu rc ra b) :=
  assigned_pack (assigned_src (o := 0x46#8) b rfl rfl)

theorem AssignedCode.cpgt (rc ra : RegNum) (b : SrcB) :
    AssignedCode.Statement (Instr.cpgt rc ra b) :=
  assigned_pack (assigned_src (o := 0x48#8) b rfl rfl)

theorem AssignedCode.cpgtu (rc ra : RegNum) (b : SrcB) :
    AssignedCode.Statement (Instr.cpgtu rc ra b) :=
  assigned_pack (assigned_src (o := 0x4A#8) b rfl rfl)

theorem AssignedCode.cpge (rc ra : RegNum) (b : SrcB) :
    AssignedCode.Statement (Instr.cpge rc ra b) :=
  assigned_pack (assigned_src (o := 0x4C#8) b rfl rfl)

theorem AssignedCode.cpgeu (rc ra : RegNum) (b : SrcB) :
    AssignedCode.Statement (Instr.cpgeu rc ra b) :=
  assigned_pack (assigned_src (o := 0x4E#8) b rfl rfl)

theorem AssignedCode.aslt (vn : VecNum) (ra : RegNum) (b : SrcB) :
    AssignedCode.Statement (Instr.aslt vn ra b) :=
  assigned_pack (assigned_src (o := 0x50#8) b rfl rfl)

theorem AssignedCode.asltu (vn : VecNum) (ra : RegNum) (b : SrcB) :
    AssignedCode.Statement (Instr.asltu vn ra b) :=
  assigned_pack (assigned_src (o := 0x52#8) b rfl rfl)

theorem AssignedCode.asle (vn : VecNum) (ra : RegNum) (b : SrcB) :
    AssignedCode.Statement (Instr.asle vn ra b) :=
  assigned_pack (assigned_src (o := 0x54#8) b rfl rfl)

theorem AssignedCode.asleu (vn : VecNum) (ra : RegNum) (b : SrcB) :
    AssignedCode.Statement (Instr.asleu vn ra b) :=
  assigned_pack (assigned_src (o := 0x56#8) b rfl rfl)

theorem AssignedCode.asgt (vn : VecNum) (ra : RegNum) (b : SrcB) :
    AssignedCode.Statement (Instr.asgt vn ra b) :=
  assigned_pack (assigned_src (o := 0x58#8) b rfl rfl)

theorem AssignedCode.asgtu (vn : VecNum) (ra : RegNum) (b : SrcB) :
    AssignedCode.Statement (Instr.asgtu vn ra b) :=
  assigned_pack (assigned_src (o := 0x5A#8) b rfl rfl)

theorem AssignedCode.asge (vn : VecNum) (ra : RegNum) (b : SrcB) :
    AssignedCode.Statement (Instr.asge vn ra b) :=
  assigned_pack (assigned_src (o := 0x5C#8) b rfl rfl)

theorem AssignedCode.asgeu (vn : VecNum) (ra : RegNum) (b : SrcB) :
    AssignedCode.Statement (Instr.asgeu vn ra b) :=
  assigned_pack (assigned_src (o := 0x5E#8) b rfl rfl)

theorem AssignedCode.cpeq (rc ra : RegNum) (b : SrcB) :
    AssignedCode.Statement (Instr.cpeq rc ra b) :=
  assigned_pack (assigned_src (o := 0x60#8) b rfl rfl)

theorem AssignedCode.cpneq (rc ra : RegNum) (b : SrcB) :
    AssignedCode.Statement (Instr.cpneq rc ra b) :=
  assigned_pack (assigned_src (o := 0x62#8) b rfl rfl)

theorem AssignedCode.mul (rc ra : RegNum) (b : SrcB) :
    AssignedCode.Statement (Instr.mul rc ra b) :=
  assigned_pack (assigned_src (o := 0x64#8) b rfl rfl)

theorem AssignedCode.mull (rc ra : RegNum) (b : SrcB) :
    AssignedCode.Statement (Instr.mull rc ra b) :=
  assigned_pack (assigned_src (o := 0x66#8) b rfl rfl)

theorem AssignedCode.div0 (rc : RegNum) (b : SrcB) :
    AssignedCode.Statement (Instr.div0 rc b) :=
  assigned_pack (assigned_src (o := 0x68#8) b rfl rfl)

theorem AssignedCode.div (rc ra : RegNum) (b : SrcB) :
    AssignedCode.Statement (Instr.div rc ra b) :=
  assigned_pack (assigned_src (o := 0x6A#8) b rfl rfl)

theorem AssignedCode.divl (rc ra : RegNum) (b : SrcB) :
    AssignedCode.Statement (Instr.divl rc ra b) :=
  assigned_pack (assigned_src (o := 0x6C#8) b rfl rfl)

theorem AssignedCode.divrem (rc ra : RegNum) (b : SrcB) :
    AssignedCode.Statement (Instr.divrem rc ra b) :=
  assigned_pack (assigned_src (o := 0x6E#8) b rfl rfl)

theorem AssignedCode.aseq (vn : VecNum) (ra : RegNum) (b : SrcB) :
    AssignedCode.Statement (Instr.aseq vn ra b) :=
  assigned_pack (assigned_src (o := 0x70#8) b rfl rfl)

theorem AssignedCode.asneq (vn : VecNum) (ra : RegNum) (b : SrcB) :
    AssignedCode.Statement (Instr.asneq vn ra b) :=
  assigned_pack (assigned_src (o := 0x72#8) b rfl rfl)

theorem AssignedCode.mulu (rc ra : RegNum) (b : SrcB) :
    AssignedCode.Statement (Instr.mulu rc ra b) :=
  assigned_pack (assigned_src (o := 0x74#8) b rfl rfl)

theorem AssignedCode.inhw (rc ra : RegNum) (b : SrcB) :
    AssignedCode.Statement (Instr.inhw rc ra b) :=
  assigned_pack (assigned_src (o := 0x78#8) b rfl rfl)

theorem AssignedCode.extract (rc ra : RegNum) (b : SrcB) :
    AssignedCode.Statement (Instr.extract rc ra b) :=
  assigned_pack (assigned_src (o := 0x7A#8) b rfl rfl)

theorem AssignedCode.exhw (rc ra : RegNum) (b : SrcB) :
    AssignedCode.Statement (Instr.exhw rc ra b) :=
  assigned_pack (assigned_src (o := 0x7C#8) b rfl rfl)

theorem AssignedCode.exhws (rc ra : RegNum) :
    AssignedCode.Statement (Instr.exhws rc ra) :=
  assigned_pack (o := 0x7E#8) rfl

theorem AssignedCode.sll (rc ra : RegNum) (b : SrcB) :
    AssignedCode.Statement (Instr.sll rc ra b) :=
  assigned_pack (assigned_src (o := 0x80#8) b rfl rfl)

theorem AssignedCode.srl (rc ra : RegNum) (b : SrcB) :
    AssignedCode.Statement (Instr.srl rc ra b) :=
  assigned_pack (assigned_src (o := 0x82#8) b rfl rfl)

theorem AssignedCode.sra (rc ra : RegNum) (b : SrcB) :
    AssignedCode.Statement (Instr.sra rc ra b) :=
  assigned_pack (assigned_src (o := 0x86#8) b rfl rfl)

theorem AssignedCode.iret :
    AssignedCode.Statement (Instr.iret) :=
  assigned_pack (o := 0x88#8) rfl

theorem AssignedCode.halt :
    AssignedCode.Statement (Instr.halt) :=
  assigned_pack (o := 0x89#8) rfl

theorem AssignedCode.iretinv :
    AssignedCode.Statement (Instr.iretinv) :=
  assigned_pack (o := 0x8C#8) rfl

theorem AssignedCode.and (rc ra : RegNum) (b : SrcB) :
    AssignedCode.Statement (Instr.and rc ra b) :=
  assigned_pack (assigned_src (o := 0x90#8) b rfl rfl)

theorem AssignedCode.or (rc ra : RegNum) (b : SrcB) :
    AssignedCode.Statement (Instr.or rc ra b) :=
  assigned_pack (assigned_src (o := 0x92#8) b rfl rfl)

theorem AssignedCode.xor (rc ra : RegNum) (b : SrcB) :
    AssignedCode.Statement (Instr.xor rc ra b) :=
  assigned_pack (assigned_src (o := 0x94#8) b rfl rfl)

theorem AssignedCode.xnor (rc ra : RegNum) (b : SrcB) :
    AssignedCode.Statement (Instr.xnor rc ra b) :=
  assigned_pack (assigned_src (o := 0x96#8) b rfl rfl)

theorem AssignedCode.nor (rc ra : RegNum) (b : SrcB) :
    AssignedCode.Statement (Instr.nor rc ra b) :=
  assigned_pack (assigned_src (o := 0x98#8) b rfl rfl)

theorem AssignedCode.nand (rc ra : RegNum) (b : SrcB) :
    AssignedCode.Statement (Instr.nand rc ra b) :=
  assigned_pack (assigned_src (o := 0x9A#8) b rfl rfl)

theorem AssignedCode.andn (rc ra : RegNum) (b : SrcB) :
    AssignedCode.Statement (Instr.andn rc ra b) :=
  assigned_pack (assigned_src (o := 0x9C#8) b rfl rfl)

theorem AssignedCode.setip (rc ra rb : RegNum) :
    AssignedCode.Statement (Instr.setip rc ra rb) :=
  assigned_pack (o := 0x9E#8) rfl

theorem AssignedCode.inv :
    AssignedCode.Statement (Instr.inv) :=
  assigned_pack (o := 0x9F#8) rfl

theorem AssignedCode.jmp (abs : Bool) (disp : BitVec 16) :
    AssignedCode.Statement (Instr.jmp abs disp) :=
  assigned_pack (assigned_jump (o := 0xA0#8) abs rfl rfl)

theorem AssignedCode.jmpf (abs : Bool) (ra : RegNum) (disp : BitVec 16) :
    AssignedCode.Statement (Instr.jmpf abs ra disp) :=
  assigned_pack (assigned_jump (o := 0xA4#8) abs rfl rfl)

theorem AssignedCode.call (abs : Bool) (ra : RegNum) (disp : BitVec 16) :
    AssignedCode.Statement (Instr.call abs ra disp) :=
  assigned_pack (assigned_jump (o := 0xA8#8) abs rfl rfl)

theorem AssignedCode.jmpt (abs : Bool) (ra : RegNum) (disp : BitVec 16) :
    AssignedCode.Statement (Instr.jmpt abs ra disp) :=
  assigned_pack (assigned_jump (o := 0xAC#8) abs rfl rfl)

theorem AssignedCode.jmpfdec (abs : Bool) (ra : RegNum) (disp : BitVec 16) :
    AssignedCode.Statement (Instr.jmpfdec abs ra disp) :=
  assigned_pack (assigned_jump (o := 0xB4#8) abs rfl rfl)

theorem AssignedCode.mftlb (rc ra : RegNum) :
    AssignedCode.Statement (Instr.mftlb rc ra) :=
  assigned_pack (o := 0xB6#8) rfl

theorem AssignedCode.mttlb (ra rb : RegNum) :
    AssignedCode.Statement (Instr.mttlb ra rb) :=
  assigned_pack (o := 0xBE#8) rfl

theorem AssignedCode.jmpi (rb : RegNum) :
    AssignedCode.Statement (Instr.jmpi rb) :=
  assigned_pack (o := 0xC0#8) rfl

theorem AssignedCode.jmpfi (ra rb : RegNum) :
    AssignedCode.Statement (Instr.jmpfi ra rb) :=
  assigned_pack (o := 0xC4#8) rfl

theorem AssignedCode.mfsr (rc : RegNum) (sa : SprNum) :
    AssignedCode.Statement (Instr.mfsr rc sa) :=
  assigned_pack (o := 0xC6#8) rfl

theorem AssignedCode.calli (ra rb : RegNum) :
    AssignedCode.Statement (Instr.calli ra rb) :=
  assigned_pack (o := 0xC8#8) rfl

theorem AssignedCode.jmpti (ra rb : RegNum) :
    AssignedCode.Statement (Instr.jmpti ra rb) :=
  assigned_pack (o := 0xCC#8) rfl

theorem AssignedCode.mtsr (sa : SprNum) (rb : RegNum) :
    AssignedCode.Statement (Instr.mtsr sa rb) :=
  assigned_pack (o := 0xCE#8) rfl

theorem AssignedCode.emulate (vn : VecNum) (ra rb : RegNum) :
    AssignedCode.Statement (Instr.emulate vn ra rb) :=
  assigned_pack (o := 0xD7#8) rfl

theorem AssignedCode.multm (rc ra rb : RegNum) :
    AssignedCode.Statement (Instr.multm rc ra rb) :=
  assigned_pack (o := 0xDE#8) rfl

theorem AssignedCode.multmu (rc ra rb : RegNum) :
    AssignedCode.Statement (Instr.multmu rc ra rb) :=
  assigned_pack (o := 0xDF#8) rfl

theorem AssignedCode.multiply (rc ra rb : RegNum) :
    AssignedCode.Statement (Instr.multiply rc ra rb) :=
  assigned_pack (o := 0xE0#8) rfl

theorem AssignedCode.divide (rc ra rb : RegNum) :
    AssignedCode.Statement (Instr.divide rc ra rb) :=
  assigned_pack (o := 0xE1#8) rfl

theorem AssignedCode.multiplu (rc ra rb : RegNum) :
    AssignedCode.Statement (Instr.multiplu rc ra rb) :=
  assigned_pack (o := 0xE2#8) rfl

theorem AssignedCode.dividu (rc ra rb : RegNum) :
    AssignedCode.Statement (Instr.dividu rc ra rb) :=
  assigned_pack (o := 0xE3#8) rfl

theorem AssignedCode.convert (rc ra : RegNum) (ui : BitVec 1) (rnd : BitVec 3) (fd fs : BitVec 2) :
    AssignedCode.Statement (Instr.convert rc ra ui rnd fd fs) :=
  assigned_pack (o := 0xE4#8) rfl

theorem AssignedCode.sqrt (rc ra : RegNum) (ctl : BitVec 8) :
    AssignedCode.Statement (Instr.sqrt rc ra ctl) :=
  assigned_pack (o := 0xE5#8) rfl

theorem AssignedCode.cls (rc ra : RegNum) (ctl : BitVec 8) :
    AssignedCode.Statement (Instr.cls rc ra ctl) :=
  assigned_pack (o := 0xE6#8) rfl

theorem AssignedCode.feq (rc ra rb : RegNum) :
    AssignedCode.Statement (Instr.feq rc ra rb) :=
  assigned_pack (o := 0xEA#8) rfl

theorem AssignedCode.deq (rc ra rb : RegNum) :
    AssignedCode.Statement (Instr.deq rc ra rb) :=
  assigned_pack (o := 0xEB#8) rfl

theorem AssignedCode.fgt (rc ra rb : RegNum) :
    AssignedCode.Statement (Instr.fgt rc ra rb) :=
  assigned_pack (o := 0xEC#8) rfl

theorem AssignedCode.dgt (rc ra rb : RegNum) :
    AssignedCode.Statement (Instr.dgt rc ra rb) :=
  assigned_pack (o := 0xED#8) rfl

theorem AssignedCode.fge (rc ra rb : RegNum) :
    AssignedCode.Statement (Instr.fge rc ra rb) :=
  assigned_pack (o := 0xEE#8) rfl

theorem AssignedCode.dge (rc ra rb : RegNum) :
    AssignedCode.Statement (Instr.dge rc ra rb) :=
  assigned_pack (o := 0xEF#8) rfl

theorem AssignedCode.fadd (rc ra rb : RegNum) :
    AssignedCode.Statement (Instr.fadd rc ra rb) :=
  assigned_pack (o := 0xF0#8) rfl

theorem AssignedCode.dadd (rc ra rb : RegNum) :
    AssignedCode.Statement (Instr.dadd rc ra rb) :=
  assigned_pack (o := 0xF1#8) rfl

theorem AssignedCode.fsub (rc ra rb : RegNum) :
    AssignedCode.Statement (Instr.fsub rc ra rb) :=
  assigned_pack (o := 0xF2#8) rfl

theorem AssignedCode.dsub (rc ra rb : RegNum) :
    AssignedCode.Statement (Instr.dsub rc ra rb) :=
  assigned_pack (o := 0xF3#8) rfl

theorem AssignedCode.fmul (rc ra rb : RegNum) :
    AssignedCode.Statement (Instr.fmul rc ra rb) :=
  assigned_pack (o := 0xF4#8) rfl

theorem AssignedCode.dmul (rc ra rb : RegNum) :
    AssignedCode.Statement (Instr.dmul rc ra rb) :=
  assigned_pack (o := 0xF5#8) rfl

theorem AssignedCode.fdiv (rc ra rb : RegNum) :
    AssignedCode.Statement (Instr.fdiv rc ra rb) :=
  assigned_pack (o := 0xF6#8) rfl

theorem AssignedCode.ddiv (rc ra rb : RegNum) :
    AssignedCode.Statement (Instr.ddiv rc ra rb) :=
  assigned_pack (o := 0xF7#8) rfl

theorem AssignedCode.fdmul (rc ra rb : RegNum) :
    AssignedCode.Statement (Instr.fdmul rc ra rb) :=
  assigned_pack (o := 0xF9#8) rfl

end Sys2Proof.Laws
end

