-- ==== Sys2Proof/Laws/Ports.lean ====
section
/-! SUPPORT. What the video interface does at the end of a transmitted line (62 R665), and what a handshake of the parallel
port from the host does (62 R644). -/

namespace Sys2Proof.Machine

/-- A shift register that is reloaded holds the word that waited, or is as before. -/
theorem Video.reload_empty {v : Video} (h : v.count = 0) :
    (v.full = true → v.reload.shift = v.vdt ∧ v.reload.count = 32 ∧ v.reload.full = false ∧ v.reload.drq = true) ∧
      (v.full = false → v.reload = v) := by
  constructor <;> intro hf <;> simp [Video.reload, h, hf, Video.drq, Video.setDrq, putBit, bit]

/-- The last bit of a line ends the line, whatever is left of its last word; a word that waits in the holding register is
whole in the shift register for the next line. -/
theorem Video.sendBit_lastBit {v : Video} (o : Bool) (hm : v.margin = false) (hl : v.linectr = 1) :
    (v.sendBit o).line = false ∧ (v.sendBit o).linectr = bits v.side 0 16 ∧
      (v.full = true → (v.sendBit o).shift = v.vdt ∧ (v.sendBit o).count = 32) ∧
      (v.full = false → (v.sendBit o).shift = 0 ∧ (v.sendBit o).count = 0) := by
  cases hf : v.full <;> simp [Video.sendBit, hm, hl, Video.endLine, Video.reload, hf, Video.setDrq]

/-! ### Parallel port (62 R644) -/

/-- An interval touches its counter and nothing else. -/
theorem Parallel.startInterval_frame (p : Parallel) :
    p.startInterval = { p with tdelay := p.startInterval.tdelay, timing := p.startInterval.timing } := by
  unfold Parallel.startInterval
  dsimp only
  split
  · rfl
  · split <;> rfl

@[simp] theorem Parallel.startInterval_ctl (p : Parallel) : p.startInterval.ctl = p.ctl := by
  rw [startInterval_frame]

@[simp] theorem Parallel.startInterval_sinceRequest (p : Parallel) :
    p.startInterval.sinceRequest = p.sinceRequest := by
  rw [startInterval_frame]

@[simp] theorem Parallel.startInterval_dataRead (p : Parallel) : p.startInterval.dataRead = p.dataRead := by
  rw [startInterval_frame]

/-- A read of PPDT is no request: the count of handshakes since the last one goes on (62 R644 E2, E3). -/
@[simp] theorem Parallel.readData_sinceRequest (p : Parallel) : p.readData.sinceRequest = p.sinceRequest := rfl

/-- A handshake raises DRQ where its request is due and starts the count again; else it counts and changes no bit of
PPCT. -/
theorem Parallel.accept_cases (p : Parallel) :
    (p.requestDue = true → bit p.accept.ctl 15 = true ∧ p.accept.sinceRequest = 0 ∧ p.accept.dataRead = false) ∧
      (p.requestDue = false → p.accept.ctl = p.ctl ∧ p.accept.sinceRequest = p.sinceRequest + 1 ∧
        p.accept.dataRead = true) := by
  constructor <;> intro h <;> simp [Parallel.accept, h, Parallel.request, Parallel.setDrq, putBit, bit]

end Sys2Proof.Machine
end

