-- ==== Sys2Proof/Tests/Slice0.lean ====
section
/-! SUPPORT. Tests: the example words of the spec decode to their instructions, WellFormed refuses ill-formed terms,
single steps give the corner cases the rules print, and a witness for the hypotheses of every statement. -/

namespace Sys2Proof.Machine

/-! ### Decoding -/

/-- Every word of a list decodes to the instruction beside it. -/
def decodesTo (l : List (Word × Instr)) : Bool := l.all fun p => decode p.1 == .instr p.2

/-- Words of 40 R203-R220: the examples printed there, and words from the formats where it prints none. -/
def addsubWords : List (Word × Instr) :=
  [ (0x14606162, .add 96 97 (.reg 98)), (0x15828204, .add 130 130 (.imm 4)), (0x1C886183, .addc 136 97 (.reg 131)),
    (0x18896284, .addcs 137 98 (.reg 132)), (0x1B606000, .addcu 96 96 (.imm 0)), (0x11606001, .adds 96 96 (.imm 1)),
    (0x12808081, .addu 128 128 (.reg 129)), (0x25606001, .sub 96 96 (.imm 1)), (0x2C616183, .subc 97 97 (.reg 131)),
    (0x28626284, .subcs 98 98 (.reg 132)), (0x2B626200, .subcu 98 98 (.imm 0)), (0x20606061, .subs 96 96 (.reg 97)),
    (0x23858501, .subu 133 133 (.imm 1)), (0x35747400, .subr 116 116 (.imm 0)), (0x3D616100, .subrc 97 97 (.imm 0)),
    (0x39626200, .subrcs 98 98 (.imm 0)), (0x3B626200, .subrcu 98 98 (.imm 0)), (0x31606000, .subrs 96 96 (.imm 0)),
    (0x336061FF, .subru 96 97 (.imm 255)) ]

theorem test_decode_addsub : decodesTo addsubWords = true := by decide

/-- Words of 41 R231-R246: the examples printed there, and words from the formats where it prints none. -/
def muldivWords : List (Word × Instr) :=
  [ (0x64608260, .mul 96 130 (.reg 96)), (0x65608200, .mul 96 130 (.imm 0)), (0x66608260, .mull 96 130 (.reg 96)),
    (0x74747774, .mulu 116 119 (.reg 116)), (0x75747700, .mulu 116 119 (.imm 0)), (0x68610082, .div0 97 (.reg 130)),
    (0x69610000, .div0 97 (.imm 0)), (0x6A616184, .div 97 97 (.reg 132)), (0x6C616184, .divl 97 97 (.reg 132)),
    (0x6E616184, .divrem 97 97 (.reg 132)), (0xE0608283, .multiply 96 130 131), (0xE2608283, .multiplu 96 130 131),
    (0xDE608283, .multm 96 130 131), (0xDF608283, .multmu 96 130 131), (0xE1608283, .divide 96 130 131),
    (0xE3608283, .dividu 96 130 131) ]

theorem test_decode_muldiv : decodesTo muldivWords = true := by decide

/-- Words of 42 R261-R285: the examples printed there, and words from the formats where it prints none. -/
def compareWords : List (Word × Instr) :=
  [ (0x60606162, .cpeq 96 97 (.reg 98)), (0x61606105, .cpeq 96 97 (.imm 5)), (0x62606162, .cpneq 96 97 (.reg 98)),
    (0x63606105, .cpneq 96 97 (.imm 5)), (0x40606162, .cplt 96 97 (.reg 98)), (0x41606105, .cplt 96 97 (.imm 5)),
    (0x42606162, .cpltu 96 97 (.reg 98)), (0x43606105, .cpltu 96 97 (.imm 5)), (0x44606162, .cple 96 97 (.reg 98)),
    (0x45606105, .cple 96 97 (.imm 5)), (0x46606162, .cpleu 96 97 (.reg 98)), (0x47606105, .cpleu 96 97 (.imm 5)),
    (0x48606162, .cpgt 96 97 (.reg 98)), (0x49606105, .cpgt 96 97 (.imm 5)), (0x4A606162, .cpgtu 96 97 (.reg 98)),
    (0x4B606105, .cpgtu 96 97 (.imm 5)), (0x4D606000, .cpge 96 96 (.imm 0)), (0x4C606162, .cpge 96 97 (.reg 98)),
    (0x4D606105, .cpge 96 97 (.imm 5)), (0x4E606162, .cpgeu 96 97 (.reg 98)), (0x4F606105, .cpgeu 96 97 (.imm 5)),
    (0x2E606162, .cpbyte 96 97 (.reg 98)), (0x70456162, .aseq 69 97 (.reg 98)), (0x7145610A, .aseq 69 97 (.imm 10)),
    (0x72456162, .asneq 69 97 (.reg 98)), (0x7345610A, .asneq 69 97 (.imm 10)), (0x50456162, .aslt 69 97 (.reg 98)),
    (0x5145610A, .aslt 69 97 (.imm 10)), (0x52456162, .asltu 69 97 (.reg 98)), (0x5345610A, .asltu 69 97 (.imm 10)),
    (0x54456162, .asle 69 97 (.reg 98)), (0x5545610A, .asle 69 97 (.imm 10)), (0x56456162, .asleu 69 97 (.reg 98)),
    (0x5745610A, .asleu 69 97 (.imm 10)), (0x58456162, .asgt 69 97 (.reg 98)), (0x5945610A, .asgt 69 97 (.imm 10)),
    (0x5A456162, .asgtu 69 97 (.reg 98)), (0x5B45610A, .asgtu 69 97 (.imm 10)), (0x5C456162, .asge 69 97 (.reg 98)),
    (0x5D45610A, .asge 69 97 (.imm 10)), (0x5E456162, .asgeu 69 97 (.reg 98)), (0x5F45610A, .asgeu 69 97 (.imm 10)),
    (0x70400101, .aseq 64 1 (.reg 1)) ]

theorem test_decode_compare : decodesTo compareWords = true := by decide

/-- Words of 43 R301-R307: the examples printed there, and words from the formats where it prints none. -/
def logicalWords : List (Word × Instr) :=
  [ (0x90606162, .and 96 97 (.reg 98)), (0x9160610F, .and 96 97 (.imm 15)), (0x9C606162, .andn 96 97 (.reg 98)),
    (0x9D60610F, .andn 96 97 (.imm 15)), (0x9A606162, .nand 96 97 (.reg 98)), (0x9B60610F, .nand 96 97 (.imm 15)),
    (0x98606162, .nor 96 97 (.reg 98)), (0x9960610F, .nor 96 97 (.imm 15)), (0x92606162, .or 96 97 (.reg 98)),
    (0x9360610F, .or 96 97 (.imm 15)), (0x96606162, .xnor 96 97 (.reg 98)), (0x9760610F, .xnor 96 97 (.imm 15)),
    (0x94606162, .xor 96 97 (.reg 98)), (0x9560610F, .xor 96 97 (.imm 15)) ]

theorem test_decode_logical : decodesTo logicalWords = true := by decide

/-- Words of 44 R317-R320: the examples printed there, and words from the formats where it prints none. -/
def shiftWords : List (Word × Instr) :=
  [ (0x8177771E, .sll 119 119 (.imm 30)), (0x83606104, .srl 96 97 (.imm 4)), (0x86606162, .sra 96 97 (.reg 98)),
    (0x7A607477, .extract 96 116 (.reg 119)), (0x81606104, .sll 96 97 (.imm 4)),
    (0x7B747703, .extract 116 119 (.imm 3)) ]

theorem test_decode_shift : decodesTo shiftWords = true := by decide

/-- Words of 45 R333-R351: the examples printed there, and words from the formats where it prints none. -/
def datamoveWords : List (Word × Instr) :=
  [ (0x16006061, .load 0 96 (.reg 97)), (0x16016061, .load 1 96 (.reg 97)), (0x16128260, .load 18 130 (.reg 96)),
    (0x17006010, .load 0 96 (.imm 16)), (0x06006061, .loadl 0 96 (.reg 97)), (0x1E006061, .store 0 96 (.reg 97)),
    (0x1E016061, .store 1 96 (.reg 97)), (0x0E006061, .storel 0 96 (.reg 97)),
    (0x26006061, .loadset 0 96 (.reg 97)), (0x04008703, .mtsrim 135 3), (0x36008260, .loadm 0 130 (.reg 96)),
    (0x3E008260, .storem 0 130 (.reg 96)), (0x0B606100, .exbyte 96 97 (.imm 0)), (0x7D606100, .exhw 96 97 (.imm 0)),
    (0x7E606100, .exhws 96 97), (0x0D60615A, .inbyte 96 97 (.imm 90)), (0x78606162, .inhw 96 97 (.reg 98)),
    (0xC6618300, .mfsr 97 131), (0xC6600200, .mfsr 96 2), (0xCE008383, .mtsr 131 131), (0xCE008160, .mtsr 129 96),
    (0x04008608, .mtsrim 134 8), (0x04000273, .mtsrim 2 115), (0xB6606100, .mftlb 96 97),
    (0xBE006061, .mttlb 96 97), (0x3700820C, .loadm 0 130 (.imm 12)), (0x3F00820C, .storem 0 130 (.imm 12)),
    (0x27106008, .loadset 16 96 (.imm 8)) ]

theorem test_decode_datamove : decodesTo datamoveWords = true := by decide

/-- Words of 46 R371-R373: the examples printed there, and words from the formats where it prints none. -/
def constantWords : List (Word × Instr) :=
  [ (0x03126034, .const 96 4660), (0x03FF82FF, .const 130 65535), (0x02126034, .consth 96 4660),
    (0x01FF60FE, .constn 96 65534), (0x01006000, .constn 96 0), (0x03006020, .const 96 32),
    (0x02806000, .consth 96 32768) ]

theorem test_decode_constant : decodesTo constantWords = true := by decide

/-- Words of 47 R383-R402: the examples printed there, and words from the formats where it prints none. -/
def floatWords : List (Word × Instr) :=
  [ (0xF0606264, .fadd 96 98 100), (0xF1606264, .dadd 96 98 100), (0xF2606264, .fsub 96 98 100),
    (0xF3606264, .dsub 96 98 100), (0xF4606264, .fmul 96 98 100), (0xF5606264, .dmul 96 98 100),
    (0xF6606264, .fdiv 96 98 100), (0xF7606264, .ddiv 96 98 100), (0xF9606263, .fdmul 96 98 99),
    (0xEA606264, .feq 96 98 100), (0xEB606264, .deq 96 98 100), (0xEC606264, .fgt 96 98 100),
    (0xED606264, .dgt 96 98 100), (0xEE606264, .fge 96 98 100), (0xEF606264, .dge 96 98 100),
    (0xE5606202, .sqrt 96 98 2), (0xE6606101, .cls 96 97 1), (0xE46162A6, .convert 97 98 1 2 1 2) ]

theorem test_decode_float : decodesTo floatWords = true := by decide

/-- Words of 48 R423-R431: the examples printed there, and words from the formats where it prints none. -/
def branchWords : List (Word × Instr) :=
  [ (0xA8008010, .call false 128 16), (0xC8008060, .calli 128 96), (0xA0000004, .jmp false 4),
    (0xA0FF00FE, .jmp false 65534), (0xA0000000, .jmp false 0), (0xC0000080, .jmpi 128),
    (0xAC006002, .jmpt false 96 2), (0xCC006061, .jmpti 96 97), (0xA4006002, .jmpf false 96 2),
    (0xC4006061, .jmpfi 96 97), (0xB4FF61FF, .jmpfdec false 97 65535), (0xA1120034, .jmp true 0x1234),
    (0xA5FF61FE, .jmpf true 97 0xFFFE), (0xA9008010, .call true 128 16), (0xAD120034, .jmpt true 0 0x1234),
    (0xB5010200, .jmpfdec true 2 256) ]

theorem test_decode_branch : decodesTo branchWords = true := by decide

/-- Words of 49 R441-R449: the examples printed there, and words from the formats where it prints none. -/
def miscWords : List (Word × Instr) :=
  [ (0x08600061, .clz 96 (.reg 97)), (0x09600001, .clz 96 (.imm 1)), (0x9E828384, .setip 130 131 132),
    (0x9E606162, .setip 96 97 98), (0xD7508386, .emulate 80 131 134), (0x9F000000, .inv), (0x88000000, .iret),
    (0x8C000000, .iretinv), (0x89000000, .halt) ]

theorem test_decode_misc : decodesTo miscWords = true := by decide

/-- 0x00 is unassigned, 0xD8 reserved for emulation, and a reserved field does not change an instruction
(30 R173, R181, R182). -/
theorem test_decode_others : decode 0x00123456 = .illegal 0 ∧ decode 0xD8616263 = .emulation 0xD8 97 98 99 ∧
    decode 0x9FABCDEF = .instr .inv ∧ decodeTableWord 32 0x7E6061FF = some (.exhws 96 97) := by decide

/-! ### WellFormed -/

/-- OPT = 011 and a reserved CNTL bit (20 R108, 30 R169). -/
theorem test_wf_cntl : Instr.wellFormed (.load 3 96 (.reg 97)) = false ∧
    Instr.wellFormed (.store 0x40 96 (.reg 97)) = false := by decide

/-- A byte access in a multiple (20 R108). -/
theorem test_wf_multiple : Instr.wellFormed (.loadm 1 96 (.reg 97)) = false := by decide

/-- RND = 5, FD = 3, FS = FD (47 R400). -/
theorem test_wf_convert : Instr.wellFormed (.convert 96 97 0 5 1 2) = false ∧
    Instr.wellFormed (.convert 96 97 0 0 3 2) = false ∧ Instr.wellFormed (.convert 96 97 0 0 1 1) = false := by decide

/-- An integer source format of SQRT (47 R401). -/
theorem test_wf_format : Instr.wellFormed (.sqrt 96 97 0) = false := by decide

/-! ### Single steps -/

/-- A core state: CPS, ALU Status, gr97 and gr98. Everything else is as after reset. -/
def coreState (cps alu x y : Word) : State :=
  { State.reset with
    pc := 0x1000, npc := 0x1004, prevPc := 0xFFC, cps := cps, alu := alu
    gr := ((Vector.replicate 64 0).set 33 x).set 34 y }

/-- Supervisor mode, traps enabled, nothing frozen. -/
abbrev supState (alu x y : Word) : State := coreState 0x10 alu x y

/-- User mode, traps enabled, nothing frozen. -/
abbrev userState (x y : Word) : State := coreState 0 0 x y

/-- Whether an instruction reaches a next state with a property. -/
def reaches (i : Instr) (s : State) (p : State → Bool) : Bool :=
  match exec i s with
  | .next t => p t
  | _ => false

/-- gr96 and V, N, Z, C. -/
def result (t : State) : Word × List Bool := (regAt t 96, [t.vFlag, t.nFlag, t.zFlag, t.cFlag])

/-- The corner cases of 40 R203 and R209. -/
theorem test_step_sums :
    reaches (.add 96 97 (.reg 98)) (supState 0 0xFFFFFFFF 1) (result · == (0, [false, false, true, true])) ∧
    reaches (.add 96 97 (.imm 1)) (supState 0 0x7FFFFFFF 0) (result · == (0x80000000, [true, true, false, false])) ∧
    reaches (.sub 96 97 (.imm 1)) (supState 0 0 0) (result · == (0xFFFFFFFF, [false, true, false, false])) ∧
    reaches (.sub 96 97 (.imm 5)) (supState 0 5 0) (result · == (0, [false, false, true, true])) := by decide

/-- The corner cases of 40 R206, R208, R214: trapped with the result written, or not. -/
theorem test_step_checked :
    reaches (.addcu 96 97 (.reg 98)) (supState 0x80 0xFFFFFFFF 0)
      (fun t => regAt t 96 == 0 && t.zFlag && t.pc2 == 0x1000 && t.pc1 == 0x1004 && t.cps == 0x413) ∧
    reaches (.addu 96 97 (.imm 1)) (supState 0 0x7FFFFFFF 0) (fun t => t.vFlag && t.pc == 0x1004) ∧
    reaches (.subu 96 97 (.imm 1)) (supState 0 0 0) (fun t => regAt t 96 == 0xFFFFFFFF && t.cps == 0x413) ∧
    reaches (.subu 96 97 (.imm 1)) (supState 0 1 0) (fun t => regAt t 96 == 0 && t.cFlag && t.cps == 0x10) := by decide

/-- A multiply step with Q odd, and the divide initialization (41 R231, R234). -/
theorem test_step_muldiv :
    reaches (.mul 96 97 (.reg 98)) { supState 0 6 1 with q := 3 } (fun t => regAt t 96 == 3 && t.q == 0x80000001) ∧
    reaches (.div0 96 (.imm 1)) { supState 0 0 0 with q := 0x80000001 }
      (fun t => regAt t 96 == 3 && t.q == 2 && t.df) := by decide

/-- 42 R264, R271, and an assert that fails in User mode with a reserved vector (R275). -/
theorem test_step_compare :
    reaches (.cpltu 96 97 (.reg 98)) (supState 0 0xFFFFFFFF 0) (regAt · 96 == 0) ∧
    reaches (.cpbyte 96 97 (.reg 98)) (supState 0 0x11223344 0xFF22FFFF) (regAt · 96 == 0x80000000) ∧
    reaches (.aseq 63 97 (.reg 98)) (userState 1 2) (fun t => t.pc1 == 0x1000 && t.pc0 == 0x1004 && t.ops == 0) ∧
    reaches (.aseq 64 97 (.reg 98)) (userState 1 2) (fun t => t.pc1 == 0x1004 && t.pc2 == 0x1000) := by decide

/-- 43 R301 with zero, 44 R318 and R319 by 31, 44 R320 with FC = 8. -/
theorem test_step_logical_shift :
    reaches (.and 96 97 (.imm 0)) (supState 0x480 0xFF 0) (result · == (0, [true, false, true, true])) ∧
    reaches (.srl 96 97 (.imm 31)) (supState 0 0x80000000 0) (regAt · 96 == 1) ∧
    reaches (.sra 96 97 (.imm 31)) (supState 0 0x80000000 0) (regAt · 96 == 0xFFFFFFFF) ∧
    reaches (.extract 96 97 (.reg 98)) (supState 8 0x11223344 0x55667788) (regAt · 96 == 0x22334455) := by decide

/-- The examples of 45 R343 and R346. -/
theorem test_step_pieces :
    reaches (.exhw 96 97 (.imm 0)) (supState 0 0x11223344 0) (regAt · 96 == 0x1122) ∧
    reaches (.exhw 96 97 (.imm 0)) (supState 0x60 0x11223344 0) (regAt · 96 == 0x3344) ∧
    reaches (.inhw 96 97 (.reg 98)) (supState 0 0x11223344 0xAAAABBBB) (regAt · 96 == 0xBBBB3344) ∧
    reaches (.inhw 96 97 (.reg 98)) (supState 0x60 0x11223344 0xAAAABBBB) (regAt · 96 == 0x1122BBBB) := by decide

/-- The core state with DRAM: bank 0 alone at 0x40000000 (61 R547), the others moved away, and one word stored. -/
def dramState (cps x y : Word) : State :=
  { coreState cps 0 x y with
    drcf := 0x00081018
    mem := [(0x40000004, 0x81), (0x40000005, 0x82), (0x40000006, 0x83), (0x40000007, 0x84)] }

/-- Big-endian loads and stores (20 R101, R105, R106). -/
theorem test_step_memory :
    reaches (.load 0 96 (.reg 97)) (dramState 0x10 0x40000004 0) (regAt · 96 == 0x81828384) ∧
    reaches (.load 0x11 96 (.reg 97)) (dramState 0x10 0x40000005 0) (fun t => regAt t 96 == 0xFFFFFF82 && t.bp == 3) ∧
    reaches (.load 2 96 (.reg 97)) (dramState 0x10 0x40000006 0) (regAt · 96 == 0x8384) ∧
    reaches (.store 1 98 (.reg 97)) (dramState 0x10 0x40000005 0xABCD)
      (fun t => Memory.word t.mem 0x40000004 == 0x81CD8384) := by decide

/-- A multiple of two registers, and the trap of an unmapped address (45 R340, 60 R465). -/
theorem test_step_multiple :
    reaches (.loadm 0 127 (.reg 97)) { dramState 0x10 0x40000004 0 with chc := 0x00010000 }
      (fun t => regAt t 127 == 0x81828384 && regAt t 128 == 0) ∧
    reaches (.load 0 96 (.reg 97)) (dramState 0x10 0x50000000 0)
      (fun t => t.cv && t.cha == 0x50000000 && t.pc2 == 0x1000) := by decide

/-- A LOADM at whose first transfer DMA channel 0 gets a request; the timer interrupt is disabled. -/
abbrev contended : State :=
  { dramState 0x20010 0x40000004 0 with
    chc := 0x00010000, dma0 := ⟨0x80, 0, 1, false⟩
    schedule := [.mid (.pins { Pins.inactive with dreq := 2 })] }

/-- 20 R131: the multiple waits, and goes on once no request is left. -/
theorem test_multiple_waits : reaches (.loadm 0 100 (.reg 97)) contended (fun t =>
    t.multiple == some ⟨true, 0, .fresh, 2, 100, 0x40000004⟩ && t.pc == contended.pc && busTaken t &&
    (match step { t with dma0 := ⟨0, 0, 1, false⟩ } with
     | .next u => u.multiple == none && u.pc == contended.npc && regAt u 100 == 0x81828384
     | _ => false)) = true := by decide

/-- A multiple of gr111 and gr112 in User mode, gr112 protected, with a WARN between the two transfers. -/
abbrev warnedMultiple : State :=
  { dramState 0x20000 0x40000004 0 with
    rbp := 0x80, chc := 0x00010000
    schedule := [.gap, .mid (.pins { Pins.inactive with warn := true })] }

/-- 60 R467: a WARN goes before the Protection Violation of the next register; without it the violation is taken. -/
theorem test_multiple_warn_first :
    reaches (.loadm 0 111 (.reg 97)) warnedMultiple (fun t => regAt t 111 == 0x81828384 && t.warnLatch && t.cv && !t.sm &&
      t.pc == warnedMultiple.npc) ∧
    reaches (.loadm 0 111 (.reg 97)) { warnedMultiple with schedule := [] } (fun t => t.sm && t.pc1 == warnedMultiple.pc) := by
  decide

/-- 00 R6, 61 R547: on the Am29205 ASEL3 may not overlap another bank; on the Am29200 it may. -/
theorem test_bank3_overlap : reservedWrite .am29205 .rmcf 0x00081018 = false ∧
    reservedWrite .am29205 .rmcf 0x00081110 = true ∧ reservedWrite .am29200 .rmcf 0x00081110 = false := by decide

/-- 62 R689: a multiple that waits for the bus in a step shows no Step mode; after it Step mode is shown. -/
theorem test_stat_in_step : (statCondition { contended with mode := .step }) = .haltOrStep ∧
    (statCondition { contended with mode := .step, multiple := some ⟨true, 0, .fresh, 2, 100, 0⟩ }) ≠ .haltOrStep := by
  refine ⟨rfl, ?_⟩
  show busCondition _ ≠ _
  unfold busCondition
  repeat' split
  all_goals decide

/-- Jumps, the link register and JMPFDEC (48 R423, R425, R431). -/
theorem test_step_branch :
    reaches (.jmp false 0xFFFE) (supState 0 0 0) (fun t => t.pc == 0x1004 && t.npc == 0xFF8) ∧
    reaches (.call true 97 0x410) (supState 0 0 0) (fun t => regAt t 97 == 0x1008 && t.npc == 0x1040) ∧
    reaches (.jmpfdec false 97 0xFFFF) (supState 0 0 0) (fun t => regAt t 97 == 0xFFFFFFFF && t.npc == 0xFFC) ∧
    reaches (.jmpt false 97 4) (supState 0 0x7FFFFFFF 0) (fun t => t.npc == 0x1008) := by decide

/-- A trapping instruction and a special register in User mode (60 R462, 10 R31). -/
theorem test_step_traps :
    reaches (.fadd 96 97 98) (supState 0 0 0)
      (fun t => t.ipc == 0x180 && t.ipa == 0x184 && t.ipb == 0x188 && t.pc2 == 0x1000 && t.ops == 0x10) ∧
    reaches (.mtsr 0 97) (userState 0x400 0) (fun t => t.vab == 0 && t.pc1 == 0x1000 && t.sm) ∧
    reaches (.mtsr 0 97) (supState 0 0x12345 0) (fun t => t.vab == 0x12000 && t.pc == 0x1004) := by decide

/-- The first instruction after reset, fetched and run: CONST gr96, 0x1234. -/
theorem test_step_from_reset :
    (match step (State.reset.withFetchWord 32 0x03126034) with
      | .next t => regAt t 96 == 0x1234 && t.pc == 4 && t.npc == 8
      | _ => false) = true := by decide

/-- The handler entry of WARN: address 16, the interrupted point saved (60 R484). -/
theorem test_step_warn : (takeWarn (supState 0 7 9)).pc = 16 ∧ (takeWarn (supState 0 7 9)).pc1 = 0x1000 ∧
    (takeWarn (supState 0 7 9)).ops = 0x10 := by decide

/-- A frame of the serial port: 7 data bits, even parity, two stop bits (62 R621, R626). -/
theorem test_serial_frame :
    ({ State.reset.serial with ctl := 0x002E0100 } : Serial).frame 0x61 =
      [false, true, false, false, false, false, true, true, true, true, true] := by decide

/-- The codes of the test access port (62 R683): 001 and 011 act as BYPASS. -/
theorem test_tap_codes : [0#3, 1, 2, 3, 4, 5, 6, 7].map tapInstr =
    [.extest, .bypass, .ictest2, .bypass, .intest, .sample, .ictest1, .bypass] := by decide

/-! ### A witness for the hypotheses of every statement

Boundary values of register numbers, vectors and special registers where a statement has several clauses. -/

/-- gr96 <- gr97, gr98 with nothing protected. -/
theorem ready_core (cps alu x y : Word) : Ready 96 97 (.reg 98) (coreState cps alu x y) 96 x y :=
  ⟨⟨rfl, isProtected_open rfl _, rfl⟩, ⟨97, rfl, isProtected_open rfl _, rfl⟩, 98, rfl, isProtected_open rfl _, rfl⟩

/-- The state after a write of gr1: a valid shadow Stack Pointer. -/
abbrev localState : State := { supState 0 0 0 with shadow := ⟨0x1FC, true⟩ }

theorem witness_LocalRegisterNumber : localState.recent.sp = none ∧ localState.shadow.valid = true ∧
    resolve .A 128 localState = some 255 ∧ resolve .A 255 localState = some 254 := by decide

theorem witness_GlobalRegisterNumber : Pos.A.oldPointer (supState 0 0 0) = none ∧
    resolve .A 0 (supState 0 0 0) = some 64 ∧ resolve .B 1 (supState 0 0 0) = some 1 ∧
    resolve .C 127 (supState 0 0 0) = some 127 := by decide

/-- User mode with every bank protected. -/
abbrev lockedState : State := { userState 0 0 with rbp := 0xFFFF }

theorem witness_ProtectedOperandTraps : CanTrap 5 lockedState ∧ lockedState.sm = false ∧
    (∃ f ∈ registerFields (.add 96 1 (.imm 0)), f = (.C, 96)) ∧ resolve .C 96 lockedState = some 96 ∧
    (∃ f ∈ registerFields (.clz 1 (.reg 127)), f = (.B, 127)) ∧ resolve .B 127 lockedState = some 127 ∧
    (∃ f ∈ registerFields (.storem 0 2 (.imm 0)), f = (.A, 2)) ∧ resolve .A 2 lockedState = some 2 ∧
    (∃ f ∈ controlField (.sqrt 96 97 2), f = (.B, 2)) ∧ resolve .B 2 lockedState = some 2 ∧
    (2 ≤ (2 : AbsReg).toNat ∧ lockedState.rbp.getLsbD ((2 : AbsReg).toNat / 16) = true) ∧
    lockedState.rbp.getLsbD ((127 : AbsReg).toNat / 16) = true ∧
    NamesProtected (registerFields (.loadm 16 2 (.imm 0))) lockedState ∧
    NamesProtected (sourceField (.reg 127)) lockedState :=
  ⟨⟨rfl, rfl, rfl, rfl⟩, rfl, ⟨_, .head _, rfl⟩, rfl, ⟨_, .tail _ (.head _), rfl⟩, rfl, ⟨_, .head _, rfl⟩, rfl,
    ⟨_, .head _, rfl⟩, rfl, ⟨by decide, by decide⟩, by decide, ⟨_, .head _, 2, rfl, by decide, by decide⟩,
    ⟨_, .head _, 127, rfl, by decide, by decide⟩⟩

/-- 10 R27, 60 R476: a LOADM whose starting or address register is protected leaves BP alone, whatever SB is. -/
theorem test_multiple_protected_start :
    reaches (.loadm 0x10 127 (.imm 0)) lockedState (fun t => t.bp == 0 && t.sm && t.pc1 == lockedState.pc) ∧
    reaches (.loadm 0x10 1 (.reg 97)) lockedState (fun t => t.bp == 0 && t.sm) := by decide

theorem witness_RegisterFormStops : (resolve .C 63 (supState 0 7 9) = some 63 ∧
      isProtected (supState 0 7 9) 63 = false ∧ hasStorage 63 = false ∧ ReadsA 97 (supState 0 7 9) 7 ∧
      ReadsB (.reg 98) (supState 0 7 9) 9) ∧
    (∃ f ∈ registerFields (.add 128 97 (.imm 0)), 128 ≤ f.2.toNat) ∧
    (∃ f ∈ registerFields (.add 96 128 (.imm 0)), 128 ≤ f.2.toNat) ∧
    (∃ f ∈ registerFields (.add 96 97 (.reg 255)), 128 ≤ f.2.toNat) ∧
    (supState 0 7 9).recent.sp = none ∧ (supState 0 7 9).shadow.valid = false :=
  ⟨⟨rfl, rfl, rfl, ⟨97, rfl, rfl, rfl⟩, ⟨98, rfl, rfl, rfl⟩⟩, ⟨_, .head _, by decide⟩, ⟨_, .tail _ (.head _), by decide⟩,
    ⟨_, .tail _ (.tail _ (.head _)), by decide⟩, rfl, rfl⟩

theorem witness_PlainSumResult : ∃ p ∈ plainSums, p.1 96 97 (.reg 98) = .add 96 97 (.reg 98) ∧
    Ready 96 97 (.reg 98) (supState 0 7 9) 96 7 9 := ⟨_, List.mem_cons_self, rfl, ready_core _ 0 7 9⟩

theorem witness_CheckedSumCompletes : ∃ p ∈ checkedSums, p.1 96 97 (.reg 98) = .adds 96 97 (.reg 98) ∧
    (Ready 96 97 (.reg 98) (supState 0 0x7FFFFFFE 1) 96 0x7FFFFFFE 1 ∧
      p.2.2 (p.2.1 0x7FFFFFFE 1 false) = false) ∧
    Ready 96 97 (.reg 98) (coreState 0x413 0 0x7FFFFFFF 1) 96 0x7FFFFFFF 1 ∧ (coreState 0x413 0 0x7FFFFFFF 1).da :=
  ⟨_, List.mem_cons_self, rfl, ⟨ready_core _ _ _ _, by decide⟩, ready_core _ _ _ _, rfl⟩

theorem witness_CheckedSumTraps : ∃ p ∈ checkedSums, p.1 96 97 (.reg 98) = .adds 96 97 (.reg 98) ∧
    Ready 96 97 (.reg 98) (supState 0 0x7FFFFFFF 1) 96 0x7FFFFFFF 1 ∧
    p.2.2 (p.2.1 0x7FFFFFFF 1 (supState 0 0x7FFFFFFF 1).cFlag) = true ∧ CanTrap 2 (supState 0 0x7FFFFFFF 1) :=
  ⟨_, List.mem_cons_self, rfl, ready_core _ _ _ _, by decide, ⟨rfl, rfl, rfl, rfl⟩⟩

theorem witness_MultiplyStepResult : ∃ p ∈ multiplySteps, p.1 96 97 (.reg 98) = .mul 96 97 (.reg 98) ∧
    Ready 96 97 (.reg 98) (supState 0 7 9) 96 7 9 := ⟨_, List.mem_cons_self, rfl, ready_core _ 0 7 9⟩

theorem witness_DivideInitializeResult :
    WritesReg .C 96 (supState 0 7 9) 96 ∧ ReadsB (.imm 255) (supState 0 7 9) 255 := ⟨⟨rfl, rfl, rfl⟩, rfl⟩

theorem witness_DivideStepResult : Ready 96 97 (.reg 98) (supState 0x800 7 9) 96 7 9 ∧
    Ready 96 97 (.reg 98) (supState 0 7 9) 96 7 9 := ⟨ready_core _ _ _ _, ready_core _ _ _ _⟩

theorem witness_DivideRemainderResult : Ready 96 97 (.reg 98) (supState 0x800 7 9) 96 7 9 := ready_core _ _ _ _

theorem numbers_ready (cps : Word) (h : cps = 0x10 ∨ cps = 0x413 ∨ cps = 0) :
    NumbersReady 96 97 98 (coreState cps 0 7 9) 96 97 98 := by
  rcases h with rfl | rfl | rfl <;> exact ⟨rfl, rfl, rfl, rfl, rfl, rfl⟩

theorem witness_TrappingInstructionTraps : trapping (.multm 96 97 98) 96 97 98 30 ∧
    trapping (.convert 96 97 0 1 2 1) 96 97 0x19 36 ∧ NumbersReady 96 97 98 (coreState 0x10 0 7 9) 96 97 98 ∧
    CanTrap 30 (coreState 0x10 0 7 9) ∧ NumbersReady 96 97 98 (coreState 0x413 0 7 9) 96 97 98 ∧
    (coreState 0x413 0 7 9).da = true :=
  ⟨.inl ⟨_, List.mem_cons_self, rfl, rfl⟩, .inr ⟨0, 1, 2, 1, rfl, by decide, rfl⟩, numbers_ready _ (.inl rfl),
    ⟨rfl, rfl, rfl, rfl⟩, numbers_ready _ (.inr (.inl rfl)), rfl⟩

theorem witness_CompareResult : ∃ p ∈ compares, p.1 96 97 (.reg 98) = .cpeq 96 97 (.reg 98) ∧
    Ready 96 97 (.reg 98) (supState 0 7 9) 96 7 9 := ⟨_, List.mem_cons_self, rfl, ready_core _ 0 7 9⟩

theorem reads_sup (alu x y : Word) : ReadsA 97 (supState alu x y) x ∧ ReadsB (.reg 98) (supState alu x y) y :=
  ⟨(ready_core _ _ _ _).srcA, (ready_core _ _ _ _).srcB⟩

theorem witness_AssertHoldsChangesNothing : ∃ p ∈ asserts, p.1 69 97 (.reg 98) = .aseq 69 97 (.reg 98) ∧
    (ReadsA 97 (supState 0 7 7) 7 ∧ ReadsB (.reg 98) (supState 0 7 7) 7 ∧ p.2 7 7 = true) ∧
    ReadsA 97 (coreState 0x413 0 7 9) 7 ∧ (coreState 0x413 0 7 9).da = true :=
  ⟨_, List.mem_cons_self, rfl, ⟨(reads_sup _ _ _).1, (reads_sup _ _ _).2, by decide⟩, ⟨97, rfl, rfl, rfl⟩, rfl⟩

theorem witness_AssertFailsTraps : ∃ p ∈ asserts, p.1 64 97 (.reg 98) = .aseq 64 97 (.reg 98) ∧ p.2 7 9 = false ∧
    (ReadsA 97 (userState 7 9) 7 ∧ ReadsB (.reg 98) (userState 7 9) 9) ∧ (userState 7 9).sm = false ∧
    (63 : VecNum).toNat < 64 ∧ CanTrap 5 (userState 7 9) ∧ ¬(64 : VecNum).toNat < 64 ∧ CanTrap 64 (userState 7 9) :=
  ⟨_, List.mem_cons_self, rfl, by decide, ⟨⟨97, rfl, rfl, rfl⟩, 98, rfl, rfl, rfl⟩, rfl, by decide, ⟨rfl, rfl, rfl, rfl⟩,
    by decide, ⟨rfl, rfl, rfl, rfl⟩⟩

theorem witness_LogicalResult : ∃ p ∈ logicals, p.1 96 97 (.reg 98) = .and 96 97 (.reg 98) ∧
    Ready 96 97 (.reg 98) (supState 0 7 9) 96 7 9 := ⟨_, List.mem_cons_self, rfl, ready_core _ 0 7 9⟩

theorem witness_ShiftResult : Ready 96 97 (.reg 98) (supState 0 7 31) 96 7 31 ∧
    Ready 96 97 (.reg 98) (supState 31 7 9) 96 7 9 := ⟨ready_core _ _ _ _, ready_core _ _ _ _⟩

theorem witness_BytePieceResult : (∃ p ∈ bytePieces, p.1 96 97 (.reg 98) = .exbyte 96 97 (.reg 98) ∧
      Ready 96 97 (.reg 98) (supState 0x60 7 9) 96 7 9) ∧
    WritesReg .C 96 (supState 0 7 9) 96 ∧ ReadsA 97 (supState 0 7 9) 7 :=
  ⟨⟨_, List.mem_cons_self, rfl, ready_core _ _ 7 9⟩, ⟨rfl, rfl, rfl⟩, (reads_sup _ _ _).1⟩

theorem witness_CountLeadingZerosResult : WritesReg .C 96 (supState 0 0 1) 96 ∧
    ReadsB (.reg 97) (supState 0 0 1) 0 ∧ ReadsB (.reg 98) (supState 0 0 1) 1 :=
  ⟨⟨rfl, rfl, rfl⟩, ⟨97, rfl, rfl, rfl⟩, 98, rfl, rfl, rfl⟩

theorem witness_ConstantResult : WritesReg .A 97 (supState 0 7 9) 97 ∧ ReadsA 97 (supState 0 7 9) 7 :=
  ⟨⟨rfl, rfl, rfl⟩, (reads_sup _ _ _).1⟩

theorem witness_LoadFromMemoryResult : WritesReg .A 96 (dramState 0x10 0x40000005 0) 96 ∧
    ReadsB (.reg 97) (dramState 0x10 0x40000005 0) 0x40000005 ∧ (dramState 0x10 0x40000005 0).chcMl = false ∧
    optDefined (cntlOpt 0x11) = true ∧ unaligned (cntlOpt 0x11) 0x40000005 = false ∧
    physical (dramState 0x10 0x40000005 0) 0x40000005 = some 0x40000005 :=
  ⟨⟨rfl, rfl, rfl⟩, ⟨97, rfl, rfl, rfl⟩, rfl, rfl, rfl, rfl⟩

theorem witness_StoreToMemoryResult : resolve .A 98 (dramState 0x10 0x40000004 5) = some 98 ∧
    isProtected (dramState 0x10 0x40000004 5) 98 = false ∧ readReg 3 98 (dramState 0x10 0x40000004 5) = 5 ∧
    ReadsB (.reg 97) (dramState 0x10 0x40000004 5) 0x40000004 ∧ (dramState 0x10 0x40000004 5).chcMl = false ∧
    optDefined (cntlOpt 0) = true ∧ unaligned (cntlOpt 0) 0x40000004 = false ∧
    locate (dramState 0x10 0x40000004 5) 0x40000004 = .dram 0x40000004 32 ∧
    hitsNextWords (dramState 0x10 0x40000004 5) 0x40000004 = false ∧
    Memory.wf (dramState 0x10 0x40000004 5).mem = true :=
  ⟨rfl, rfl, rfl, ⟨97, rfl, rfl, rfl⟩, rfl, rfl, rfl, by decide, by decide, by decide⟩

theorem witness_LoadAndSetResult : WritesReg .A 98 (dramState 0x10 0x40000006 5) 98 ∧
    ReadsB (.reg 97) (dramState 0x10 0x40000006 5) 0x40000006 ∧ (dramState 0x10 0x40000006 5).chcMl = false ∧
    optDefined (cntlOpt 2) = true ∧ unaligned (cntlOpt 2) 0x40000006 = false ∧
    locate (dramState 0x10 0x40000006 5) 0x40000006 = .dram 0x40000006 32 ∧
    hitsNextWords (dramState 0x10 0x40000006 5) 0x40000006 = false ∧
    Memory.wf (dramState 0x10 0x40000006 5).mem = true :=
  ⟨⟨rfl, rfl, rfl⟩, ⟨97, rfl, rfl, rfl⟩, rfl, rfl, rfl, by decide, by decide, by decide⟩

theorem witness_AccessTrapsPrecisely :
    (resolve .A 98 (dramState 0x10 0x50000000 5) = some 98 ∧ isProtected (dramState 0x10 0x50000000 5) 98 = false ∧
      ReadsB (.reg 97) (dramState 0x10 0x50000000 5) 0x50000000 ∧ (dramState 0x10 0x50000000 5).chcMl = false ∧
      locate (dramState 0x10 0x50000000 5) 0x50000000 = .miss ∧ CanTrap 11 (dramState 0x10 0x50000000 5)) ∧
    (ReadsB (.reg 97) (dramState 0x810 0x40000005 5) 0x40000005 ∧
      locate (dramState 0x810 0x40000005 5) 0x40000005 ≠ .miss ∧ (dramState 0x810 0x40000005 5).tu = true ∧
      unaligned (cntlOpt 0) 0x40000005 = true ∧ CanTrap 1 (dramState 0x810 0x40000005 5)) ∧
    optDefined (cntlOpt 0) = true :=
  ⟨⟨rfl, rfl, ⟨97, rfl, rfl, rfl⟩, rfl, by decide, rfl, rfl, rfl, rfl⟩,
    ⟨⟨97, rfl, rfl, rfl⟩, by decide, rfl, rfl, rfl, rfl, rfl, rfl⟩, rfl⟩

/-- Two transfers. -/
abbrev twoTransfers : State := { dramState 0x10 0x40000004 0 with chc := 0x00010000 }

theorem multiple_ready :
    MultipleReady 0 127 (.reg 97) twoTransfers 127 0x40000004 (multipleAddr 0x40000004) where
  word := rfl
  unfrozen := rfl
  apart := rfl
  byHand := rfl
  alone := rfl
  noWarn := rfl
  noDma := by decide
  noEvent := by decide
  number := rfl
  address := ⟨97, rfl, rfl, rfl⟩
  aligned := by decide
  regs := by decide
  memory k hk := by
    have : k = 0 ∨ k = 1 := by have : k ≤ 1 := hk; omega
    rcases this with rfl | rfl <;> exact ⟨32, by decide⟩

theorem witness_LoadMultipleResult :
    MultipleReady 0 127 (.reg 97) twoTransfers 127 0x40000004 (multipleAddr 0x40000004) := multiple_ready

theorem witness_StoreMultipleResult :
    MultipleReady 0 127 (.reg 97) twoTransfers 127 0x40000004 (multipleAddr 0x40000004) ∧
    Memory.wf twoTransfers.mem = true ∧
    ∀ k, k ≤ twoTransfers.cr.toNat → hitsNextWords twoTransfers (multipleAddr 0x40000004 k) = false :=
  ⟨multiple_ready, by decide, by decide⟩

theorem witness_MoveFromSpecialResult : WritesReg .C 96 (userState 0 0) 96 ∧ mayAccess (userState 0 0) 128 ∧
    mayAccess (userState 0 0) 135 ∧ mayAccess (userState 0 0) 159 ∧ WritesReg .C 96 (coreState 0x410 0 0 0) 96 ∧
    mayAccess (coreState 0x410 0 0 0) 0 ∧ mayAccess (coreState 0x410 0 0 0) 2 ∧ mayAccess (coreState 0x410 0 0 0) 3 ∧
    mayAccess (coreState 0x410 0 0 0) 4 ∧ mayAccess (coreState 0x410 0 0 0) 12 ∧ (coreState 0x410 0 0 0).fz = true ∧
    (coreState 0x410 0 0 0).fzSettle = 0 :=
  ⟨⟨rfl, rfl, rfl⟩, by decide, by decide, by decide, ⟨rfl, rfl, rfl⟩, by decide, by decide, by decide, by decide,
    by decide, rfl, rfl⟩

theorem witness_MoveToSpecialResult : movesTo (.mtsr 0 97) 0 7 (supState 0 7 9) ∧ mayAccess (supState 0 7 9) 0 ∧
    movesTo (.mtsrim 132 0xFFFF) 132 0xFFFF (userState 7 9) ∧ mayAccess (userState 7 9) 132 ∧
    movesTo (.mtsr 135 98) 135 9 (userState 7 9) ∧ movesTo (.mtsrim 135 0x1FF) 135 0x1FF (userState 7 9) :=
  ⟨.inl ⟨97, rfl, 97, rfl, rfl, rfl⟩, by decide, .inr ⟨0xFFFF, rfl, by decide⟩, by decide,
    .inl ⟨98, rfl, 98, rfl, rfl, rfl⟩, .inr ⟨0x1FF, rfl, by decide⟩⟩

theorem witness_MoveToStatusResult : movesTo (.mtsrim 2 0x73) 2 0x73 (supState 0 7 9) ∧ mayAccess (supState 0 7 9) 2 ∧
    movesTo (.mtsr 3 97) 3 7 (supState 0 7 9) ∧ mayAccess (supState 0 7 9) 3 ∧
    movesTo (.mtsrim 13 1) 13 1 (supState 7 9 0) ∧ mayAccess (supState 7 9 0) 13 ∧ mayAccess (supState 7 9 0) 127 ∧
    movesTo (.mtsrim 136 1) 136 1 (userState 7 9) ∧ mayAccess (userState 7 9) 136 ∧ mayAccess (userState 7 9) 159 :=
  ⟨.inr ⟨0x73, rfl, by decide⟩, by decide, .inl ⟨97, rfl, 97, rfl, rfl, rfl⟩, by decide, .inr ⟨1, rfl, by decide⟩,
    by decide, by decide, .inr ⟨1, rfl, by decide⟩, by decide, by decide⟩

theorem witness_FunnelCountWindow : WritesReg .C 96 (userState 7 9) 96 ∧
    movesTo (.mtsrim 134 0x3F) 134 0x3F (userState 7 9) := ⟨⟨rfl, rfl, rfl⟩, .inr ⟨0x3F, rfl, by decide⟩⟩

theorem witness_BytePointerWindow : WritesReg .C 96 (userState 7 9) 96 ∧
    movesTo (.mtsr 133 97) 133 7 (userState 7 9) := ⟨⟨rfl, rfl, rfl⟩, .inl ⟨97, rfl, 97, rfl, rfl, rfl⟩⟩

theorem witness_SpecialRegisterPrivilege : ¬mayAccess (userState 7 9) 127 ∧ CanTrap 5 (userState 7 9) ∧
    ¬mayAccess (supState 0 7 9) 160 ∧ CanTrap 5 (supState 0 7 9) :=
  ⟨by decide, ⟨rfl, rfl, rfl, rfl⟩, by decide, ⟨rfl, rfl, rfl, rfl⟩⟩

theorem witness_SetIndirectPointersResult : NumbersReady 96 97 98 (coreState 0 0 7 9) 96 97 98 :=
  numbers_ready _ (.inr (.inr rfl))

theorem witness_EmulateTraps :
    (resolve .A 97 (userState 7 9) = some 97 ∧ resolve .B 98 (userState 7 9) = some 98 ∧
      isProtected (userState 7 9) 97 = false ∧ isProtected (userState 7 9) 98 = false) ∧
    ((userState 7 9).sm = false ∧ (63 : VecNum).toNat < 64 ∧ CanTrap 5 (userState 7 9)) ∧
    (¬(64 : VecNum).toNat < 64 ∧ CanTrap 64 (userState 7 9)) ∧
    resolve .A 97 (coreState 0x413 0 7 9) = some 97 ∧ (coreState 0x413 0 7 9).da = true :=
  ⟨⟨rfl, rfl, rfl, rfl⟩, ⟨rfl, by decide, ⟨rfl, rfl, rfl, rfl⟩⟩, ⟨by decide, rfl, rfl, rfl, rfl⟩, rfl, rfl⟩

theorem witness_JumpResult : ReadsReg .B 97 4 (supState 0 0x2003 9) 0x2003 ∧
    ReadsA 97 (supState 0 0x80000000 9) 0x80000000 ∧ ReadsA 97 (supState 0 0x7FFFFFFF 9) 0x7FFFFFFF ∧
    ReadsReg .B 98 4 (supState 0 0x80000000 9) 9 :=
  ⟨⟨97, rfl, rfl, rfl⟩, ⟨97, rfl, rfl, rfl⟩, ⟨97, rfl, rfl, rfl⟩, 98, rfl, rfl, rfl⟩

theorem witness_CallResult : WritesReg .A 97 (supState 0 7 9) 97 ∧ ReadsReg .B 97 4 (supState 0 7 9) 7 :=
  ⟨⟨rfl, rfl, rfl⟩, 97, rfl, rfl, rfl⟩

theorem witness_JumpDecrementResult : WritesReg .A 97 (supState 0 0 9) 97 ∧ ReadsA 97 (supState 0 0 9) 0 :=
  ⟨⟨rfl, rfl, rfl⟩, 97, rfl, rfl, rfl⟩

theorem witness_PrivilegedNopChangesNothing : isPrivilegedNop .inv ∧ isPrivilegedNop (.mftlb 96 97) ∧
    isPrivilegedNop (.mttlb 96 97) ∧ (supState 0 7 9).sm = true :=
  ⟨.inl rfl, .inr (.inl ⟨96, 97, rfl⟩), .inr (.inr ⟨96, 97, rfl⟩), rfl⟩

theorem witness_PrivilegedInUserTraps : isPrivilegedNop .inv ∧ (userState 7 9).dbg.haltUnprotected = false ∧
    (userState 7 9).sm = false ∧ CanTrap 5 (userState 7 9) := ⟨.inl rfl, rfl, rfl, ⟨rfl, rfl, rfl, rfl⟩⟩

theorem witness_InterruptReturnResult : (coreState 0x410 0 7 9).sm = true ∧ (coreState 0x410 0 7 9).fz = true ∧
    (coreState 0x410 0 7 9).cv = false ∧ ({ coreState 0x410 0 7 9 with chc := 3 } : State).nn = true ∧
    (coreState 0x10 0 7 9).sm = true ∧ (coreState 0x10 0 7 9).fz = false ∧ (coreState 0x10 0 7 9).fzSettle = 0 := by decide

/-- A handler about to return to a load that trapped. -/
abbrev returning : State :=
  { dramState 0x410 7 9 with ops := 0x10, cha := 0x40000004, chc := 0x00008181 }

/-- The same for other accesses: CHC and OPS given, CHD a word of four bytes. -/
abbrev returningTo (chc ops : Word) : State := { returning with chc := chc, chd := 0xA1B2C3D4, ops := ops }

theorem restartable (chc ops : Word) (h : (bit chc 0 && !bit chc 1) = true) : Restartable (returningTo chc ops) := by
  simp only [Bool.and_eq_true, Bool.not_eq_true'] at h
  exact ⟨by show bit (0x410 : Word) 4 = true; decide, by show bit (0x410 : Word) 10 = true; decide, rfl, h.1, h.2⟩

theorem resumable (chc : Word) (h : chc = 0x1C1FD ∨ chc = 0x141FD) :
    ResumesMultiple (returningTo chc 0x10) (multipleAddr 0x40000004) := by
  rcases h with rfl | rfl <;>
    exact ⟨rfl, rfl, rfl, rfl, by decide, by decide, by decide, by decide, by decide, fun k hk => by
      have : k = 0 ∨ k = 1 := by have : k ≤ 1 := hk; omega
      rcases this with rfl | rfl <;> exact ⟨32, by decide⟩⟩

theorem witness_InterruptReturnRestartsAccess :
    (Restartable (returningTo 0x8181 0x10) ∧ RestartsSingle (returningTo 0x8181 0x10) ∧
      bit (returningTo 0x8181 0x10).chc 15 = true ∧ bit (returningTo 0x8181 0x10).chc 13 = false ∧
      physical (returningTo 0x8181 0x10) 0x40000004 = some 0x40000004 ∧
      hasStorage (bits (returningTo 0x8181 0x10).chc 2 8) = true) ∧
    (Restartable (returningTo 0xA181 0x410) ∧ RestartsSingle (returningTo 0xA181 0x410) ∧
      bit (returningTo 0xA181 0x410).chc 15 = true ∧ bit (returningTo 0xA181 0x410).chc 13 = true ∧
      RestartsStore (returningTo 0xA181 0x410) 0x40000004 32 ∧
      hasStorage (bits (returningTo 0xA181 0x410).chc 2 8) = true) ∧
    (Restartable (returningTo 0x1000181 0x10) ∧ RestartsSingle (returningTo 0x1000181 0x10) ∧
      bit (returningTo 0x1000181 0x10).chc 15 = false ∧ RestartsStore (returningTo 0x1000181 0x10) 0x40000004 32) ∧
    (Restartable (returningTo 0x1C1FD 0x10) ∧ ResumesMultiple (returningTo 0x1C1FD 0x10) (multipleAddr 0x40000004) ∧
      bit (returningTo 0x1C1FD 0x10).chc 15 = true) ∧
    Restartable (returningTo 0x141FD 0x10) ∧ ResumesMultiple (returningTo 0x141FD 0x10) (multipleAddr 0x40000004) ∧
      bit (returningTo 0x141FD 0x10).chc 15 = false ∧ Memory.wf (returningTo 0x141FD 0x10).mem = true ∧
      ∀ k, k ≤ (returningTo 0x141FD 0x10).cr.toNat → hitsWords (returningTo 0x141FD 0x10)
        (restoreContext (returningTo 0x141FD 0x10)).wordsAfterReturn (multipleAddr 0x40000004 k) = false :=
  ⟨⟨restartable _ _ rfl, ⟨rfl, rfl, rfl⟩, rfl, rfl, by decide, by decide⟩,
    ⟨restartable _ _ rfl, ⟨rfl, rfl, rfl⟩, rfl, rfl, ⟨by decide, by decide, by decide⟩, by decide⟩,
    ⟨restartable _ _ rfl, ⟨rfl, rfl, rfl⟩, rfl, by decide, by decide, by decide⟩,
    ⟨restartable _ _ rfl, resumable _ (.inl rfl), rfl⟩,
    restartable _ _ rfl, resumable _ (.inr rfl), rfl, by decide, by decide⟩

/-- 49 R447: a byte store drives its lane of CHD; a multiple resumes at TR, CHA and CR, a store with CHD. -/
theorem test_step_return :
    reaches .iret (returningTo 0x1000181 0x10) (fun t => Memory.word t.mem 0x40000004 == 0xA1828384 && !t.cv) ∧
    reaches .iret (returningTo 0x1C1FD 0x10) (fun t => regAt t 127 == 0x81828384 && regAt t 128 == 0) ∧
    reaches .iret (returningTo 0x141FD 0x10)
      (fun t => Memory.word t.mem 0x40000004 == 0xA1B2C3D4 && Memory.word t.mem 0x40000008 == regAt t 128) := by
  decide

/-- An INV follows the instruction at pc. -/
abbrev noTrapAhead : State := { supState 0 7 9 with mem := [(0x1004, 0x9F)] }

theorem witness_HaltEntersHaltMode : (coreState 0x411 0 7 9).sm = true ∧ (coreState 0x411 0 7 9).da = true ∧
    noTrapAhead.sm = true ∧ trapBeforeHalt (finish noTrapAhead.enter) = false ∧
    ({ userState 7 9 with dbg := { State.reset.dbg with haltUnprotected := true } } : State).dbg.haltUnprotected = true ∧
    noTrapAhead.schedule = [] ∧ busTaken noTrapAhead = false ∧ noTrapAhead.dbg.pending = [] ∧
    noTrapAhead.multiple = none := by decide

/-- Reset with CONST gr96, 0x1234 placed at address 0. -/
abbrev placed : State := State.reset.withFetchWord 32 0x03126034

theorem witness_StepRunsInstruction : placed.schedule = [] ∧ busTaken placed = false ∧
    placed.mode = .executing ∧ placed.warnLatch = false ∧
    asyncEvent placed = none ∧ placed.multiple = none ∧ placed.wm = false ∧ bits placed.pc 0 2 = 0 ∧ physical placed placed.pc = some 0 ∧
    decodeBytes (Memory.get placed.mem 0) (Memory.get placed.mem 1) (Memory.get placed.mem 2)
      (Memory.get placed.mem 3) = some (.const 96 0x1234) := by decide

/-- Both trap inputs asserted. -/
abbrev trapPins : State := { supState 0 7 9 with pins := { Pins.inactive with trap := 3 } }

theorem core_alone (cps alu x y : Word) : CoreAlone (coreState cps alu x y) :=
  ⟨rfl, by simp [busTaken, channelReady, State.channel, coreState, State.reset, State.resetFor, bit], rfl, rfl⟩

theorem witness_AsyncEventTakenFirst : CoreAlone trapPins ∧ trapPins.mode = .executing ∧ trapPins.warnLatch = false ∧
    (∃ e, eventOrder.find? (fun p => p.2 trapPins) = some e ∧ e.1 = 20 ∧ CanTrap e.1 trapPins) ∧
    CoreAlone (coreState 0x1010 0 7 9) ∧
    ∃ e, eventOrder.find? (fun p => p.2 (coreState 0x1010 0 7 9)) = some e ∧ e.1 = 15 ∧
      CanTrap e.1 (coreState 0x1010 0 7 9) :=
  ⟨⟨rfl, by rfl, rfl, rfl⟩, rfl, rfl, ⟨_, rfl, rfl, rfl, rfl, rfl, rfl⟩, core_alone _ _ _ _, _, rfl, rfl, rfl, rfl, rfl, rfl⟩

/-- A WARN while the datum of a load is outstanding. -/
abbrev warned : State :=
  { supState 0 7 9 with warnLatch := true, flight := some ⟨some (97, 5, ⟨0, false⟩), true, none⟩ }

theorem witness_WarnTaken : CoreAlone warned ∧ warned.warnLatch = true ∧ warned.fzSettle = 0 ∧
    CoreAlone { coreState 0x413 0 7 9 with warnLatch := true } ∧ (coreState 0x413 0 7 9).flight = none ∧
    CoreAlone { warned with dbg := { State.reset.dbg with forced := true } } :=
  ⟨⟨rfl, by rfl, rfl, rfl⟩, rfl, rfl, ⟨rfl, by rfl, rfl, rfl⟩, rfl, rfl, by rfl, rfl, rfl⟩

theorem witness_WaitModeIdles : CoreAlone (coreState 0x91 0 7 9) ∧ (coreState 0x91 0 7 9).mode = .executing ∧
    (coreState 0x91 0 7 9).warnLatch = false ∧ asyncEvent (coreState 0x91 0 7 9) = none ∧
    (coreState 0x91 0 7 9).wm = true := ⟨core_alone _ _ _ _, rfl, rfl, by decide, rfl⟩

/-- An operation code reserved for emulation at pc. -/
abbrev emulationAhead : State := placeWord (supState 0 7 9) 0x1000 0xD8606162

/-- The program counter in mapped DRAM without a mapping. -/
abbrev unmappedAhead : State := { supState 0 7 9 with pc := 0x50000000, npc := 0x50000004 }

theorem witness_IllegalCodeTraps :
    (CoreExecutes (supState 0 7 9) ∧ fetch (supState 0 7 9) (supState 0 7 9).pc = .word 0 ∧ decode 0 = .illegal 0 ∧
      CanTrap 0 (supState 0 7 9)) ∧
    (CoreExecutes unmappedAhead ∧ fetch unmappedAhead unmappedAhead.pc = .miss ∧ unmappedAhead.sm = true ∧
      CanTrap 10 unmappedAhead) ∧
    CoreExecutes emulationAhead ∧ fetch emulationAhead emulationAhead.pc = .word 0xD8606162 ∧
    decode 0xD8606162 = .emulation 0xD8 96 97 98 ∧ NumbersReady 96 97 98 emulationAhead 96 97 98 ∧
    CanTrap (0xD8 - 0xC0) emulationAhead :=
  ⟨⟨⟨core_alone _ _ _ _, rfl, rfl, by decide, rfl⟩, rfl, by decide, rfl, rfl, rfl, rfl⟩,
    ⟨⟨⟨rfl, by rfl, rfl, rfl⟩, rfl, rfl, by decide, rfl⟩, by decide, rfl, rfl, rfl, rfl, rfl⟩,
    ⟨⟨rfl, by rfl, rfl, rfl⟩, rfl, rfl, by decide, rfl⟩, by decide, by decide, ⟨rfl, rfl, rfl, rfl, rfl, rfl⟩, rfl, rfl, rfl, rfl⟩

theorem witness_TimerCountsDown : (0xFFFFFF : Word).toNat < 2 ^ 24 ∧ 1 ≤ (1 : Word).toNat ∧
    timerTicks 1 (0, 0x0100_0005) = (5, 0x0300_0005) ∧ timerTicks 1 (1, 0x0100_0005) = (0, 0x0100_0005) := by decide

theorem witness_InterruptBitsClearByOnes :
    let s : State := supState 0 0x80000028 0xFF0000
    resolve .A 98 s = some 98 ∧ isProtected s 98 = false ∧ readReg 3 98 s = 0xFF0000 ∧
      ReadsB (.reg 97) s 0x80000028 ∧ s.chcMl = false := ⟨rfl, rfl, rfl, ⟨97, rfl, rfl, rfl⟩, rfl⟩

theorem witness_PeripheralRegisterResult :
    (∃ r ∈ plainPeripherals, r.1 = 0x80000000 ∧ ReadsB (.reg 97) (supState 0 r.1 9) r.1 ∧
      resolve .A 98 (supState 0 r.1 9) = some 98 ∧ isProtected (supState 0 r.1 9) 98 = false ∧
      readReg 3 98 (supState 0 r.1 9) = 9 ∧ (supState 0 r.1 9).variant = .am29200 ∧
      (supState 0 r.1 9).chcMl = false) ∧
    ∃ r ∈ plainPeripherals, r.1 = 0x80000034 ∧ WritesReg .A 96 (supState 0 r.1 9) 96 ∧
      ReadsB (.reg 97) (supState 0 r.1 9) r.1 :=
  ⟨⟨_, .head _, rfl, ⟨97, rfl, rfl, rfl⟩, rfl, rfl, rfl, rfl, rfl⟩,
    (0x80000034, fun s => s.dma0.addr, 0xFFFFFFFF), by simp [plainPeripherals], rfl, ⟨rfl, rfl, rfl⟩, 97, rfl, rfl, rfl⟩

/-- A step that stores: STORE 0, 0, gr98, gr97 at 0x1000. -/
abbrev storing : State :=
  (placeWord (dramState 0x10 0x40000008 0x01020304) 0x1000 0x1E006261)

theorem witness_StepKeepsMemoryCanonical : Memory.wf storing.mem = true ∧
    (match step storing with | .next t => t.mem != storing.mem | _ => false) = true := by decide

theorem witness_StepKeepsPcsAligned : AlignedPcs storing ∧
    (match step storing with | .next t => t.pc == 0x1004 | _ => false) = true := ⟨by constructor <;> decide, by decide⟩

theorem witness_StepKeepsReservedZero : ReservedZero storing ∧
    (match step storing with | .next t => t.chc != storing.chc | _ => false) = true :=
  ⟨by constructor <;> decide, by decide⟩

theorem witness_UserModeKeepsControl : (userState 7 9).sm = false ∧ (userState 7 9).schedule = [] ∧
    reaches (.aseq 64 97 (.reg 98)) (userState 7 9) (fun t => t.sm) ∧
    reaches (.aseq 64 97 (.reg 97)) (userState 7 9) (fun t => !t.sm) := by decide

/-! ### The parallel port -/

/-- With FWT = 1 and MODE = 01 a read of PPDT after the first handshake clears BCT, and the fourth handshake still raises
DRQ (62 R644 E2, E3). -/
theorem test_parallel_early_read :
    let p : Parallel := Parallel.readData (Parallel.accept { State.reset.pport with ctl := 0x40000100 })
    bit p.ctl 15 = false ∧ p.bct = 0 ∧ bit p.accept.accept.ctl 15 = false ∧
      bit p.accept.accept.accept.ctl 15 = true ∧ p.accept.accept.accept.bct = 3 := by decide

end Sys2Proof.Machine
end

section
/-! PROOFS. The part of the state that the invariants of a step speak of, and the operations of the units outside the core,
which leave that part as it is. -/

namespace Sys2Proof.Machine

/-- The program counters, the special registers with reserved bits or of control, memory and the schedule. -/
structure Tracked where
  pc : Word
  npc : Word
  prevPc : Word
  vab : Word
  ops : Word
  cps : Word
  chc : Word
  rbp : Word
  tmc : Word
  tmr : Word
  pc0 : Word
  pc1 : Word
  pc2 : Word
  ipa : Word
  ipb : Word
  ipc : Word
  alu : Word
  mem : List Host.Cell
  schedule : List Event

/-- The tracked part of a state. -/
def State.tracked (s : State) : Tracked :=
  ⟨s.pc, s.npc, s.prevPc, s.vab, s.ops, s.cps, s.chc, s.rbp, s.tmc, s.tmr, s.pc0, s.pc1, s.pc2, s.ipa, s.ipb, s.ipc,
    s.alu, s.mem, s.schedule⟩

/-! ### Interrupts, ports and peripheral registers -/

@[simp] theorem tracked_latchEdges (e : Nat → Bool) (s : State) : (latchEdges e s).tracked = s.tracked := by
  unfold latchEdges
  dsimp only
  split <;> rfl

@[simp] theorem tracked_latchIrqs (o s : State) : (latchIrqs o s).tracked = s.tracked := rfl

@[simp] theorem tracked_syncPio (s : State) : (syncPio s).tracked = s.tracked := tracked_latchEdges _ _

@[simp] theorem tracked_samplePio (s : State) : (samplePio s).tracked = s.tracked := by
  unfold samplePio
  split
  · rfl
  · split
    · exact tracked_syncPio s
    · rfl

@[simp] theorem tracked_announce (o s : State) : (announce o s).tracked = s.tracked := rfl

@[simp] theorem tracked_afterAccess (r : PReg) (o s : State) : (afterAccess r o s).tracked = s.tracked := by
  unfold afterAccess latchVideo
  split <;> rfl

@[simp] theorem tracked_readPreg (r : PReg) (k : Nat) (s : State) : (readPreg r k s).2.tracked = s.tracked := by
  rw [readPreg, tracked_afterAccess]
  cases r <;> rfl

@[simp] theorem tracked_writePreg (r : PReg) (k : Nat) (d : Word) (s : State) :
    (writePreg r k d s).tracked = s.tracked := by
  have h : (writePregRaw r k d s).tracked = s.tracked := by cases r <;> rfl
  simp only [writePreg, tracked_afterAccess]
  split
  · rw [tracked_latchEdges, h]
  · exact h

/-! ### DMA and the other agents -/

@[simp] theorem tracked_setChannel (s : State) (x : Nat) (c : DmaChannel) : (s.setChannel x c).tracked = s.tracked := by
  unfold State.setChannel
  split <;> rfl

@[simp] theorem tracked_terminate (s : State) (x : Nat) (c d : Bool) : (terminate s x c d).tracked = s.tracked := by
  unfold terminate
  dsimp only
  split <;> simp

@[simp] theorem tracked_afterTransfer (s : State) (x : Nat) (e : Bool) : (afterTransfer s x e).tracked = s.tracked := by
  unfold afterTransfer
  dsimp only
  split <;> simp

@[simp] theorem tracked_pinsMove (p : Pins) (s : State) : (pinsMove p s).tracked = s.tracked := rfl

@[simp] theorem tracked_serialMove (s : State) (p : Serial) : (serialMove s p).tracked = s.tracked := rfl

@[simp] theorem tracked_showBit (s : State) : s.showBit.tracked = s.tracked := by
  unfold State.showBit
  split <;> rfl

@[simp] theorem tracked_selectTap (c : BitVec 3) (s : State) : (selectTap c s).tracked = s.tracked := rfl

@[simp] theorem tracked_warnPeripherals (s : State) : (warnPeripherals s).tracked = s.tracked := rfl

@[simp] theorem tracked_queueCntl (v : BitVec 2) (s : State) : (queueCntl v s).tracked = s.tracked := by
  unfold queueCntl
  split <;> rfl

@[simp] theorem tracked_deferCntl (v : BitVec 2) (s : State) : (deferCntl v s).tracked = s.tracked := by
  unfold deferCntl
  dsimp only
  split
  · split <;> exact tracked_queueCntl v s
  · rfl

end Sys2Proof.Machine
end

section
/-! PROOFS. Words: replaced fields, multiples of 4, and words whose bits all lie within a mask. -/

namespace Sys2Proof.Machine

/-! ### Fields -/

theorem getLsbD_putBits {n : Nat} (w : Word) (lo i : Nat) (v : BitVec n) (hi : i < 32) (hn : n ≤ 32) :
    (putBits w lo v).getLsbD i = if lo ≤ i ∧ i < lo + n then v.getLsbD (i - lo) else w.getLsbD i := by
  simp only [putBits, BitVec.getLsbD_or, BitVec.getLsbD_and, BitVec.getLsbD_not, BitVec.getLsbD_shiftLeft,
    BitVec.getLsbD_setWidth, BitVec.getLsbD_allOnes, hi]
  by_cases h1 : lo ≤ i
  · by_cases h2 : i < lo + n
    · have h3 : i - lo < n := by omega
      have h4 : i - lo < 32 := by omega
      simp [h1, h2, h3, h4, Nat.not_lt.mpr h1]
    · have h3 : ¬ i - lo < n := by omega
      have h4 : v.getLsbD (i - lo) = false := BitVec.getLsbD_of_ge _ _ (by omega)
      simp [h1, h2, h3, h4]
  · simp [h1, Nat.lt_of_not_le h1]

theorem bits_putBits_same {n : Nat} (w : Word) (lo : Nat) (v : BitVec n) (h : lo + n ≤ 32) :
    bits (putBits w lo v) lo n = v := by
  apply BitVec.eq_of_getLsbD_eq
  intro i hi
  rw [bits, BitVec.getLsbD_extractLsb', getLsbD_putBits w lo (lo + i) v (by omega) (by omega),
    if_pos ⟨by omega, by omega⟩, Nat.add_sub_cancel_left, decide_eq_true hi, Bool.true_and]

/-- A field apart from the replaced one. -/
theorem bits_putBits_outside {n : Nat} (w : Word) (lo at' m : Nat) (v : BitVec n) (hn : n ≤ 32) (hm : at' + m ≤ 32)
    (h : at' + m ≤ lo ∨ lo + n ≤ at') : bits (putBits w lo v) at' m = bits w at' m := by
  apply BitVec.eq_of_getLsbD_eq
  intro i hi
  rw [bits, bits, BitVec.getLsbD_extractLsb', BitVec.getLsbD_extractLsb',
    getLsbD_putBits w lo (at' + i) v (by omega) hn, if_neg (by omega)]

theorem pointerWord_field (v : Word) : pointerWord (bits v 2 8) = v &&& 0x3FC := by
  apply BitVec.eq_of_getLsbD_eq
  intro i hi
  interval_cases i <;> simp [pointerWord, zext, bits]

/-- CFG holds the release level above 24 zero bits (10 R38). -/
theorem zext_shiftLeft_24 (p : BitVec 8) : (zext p <<< 24 : Word) = p ++ 0#24 := by
  apply BitVec.eq_of_getLsbD_eq
  intro i hi
  show _ = BitVec.getLsbD (w := 8 + 24) (p ++ 0#24) i
  simp only [zext, BitVec.getLsbD_shiftLeft, BitVec.getLsbD_setWidth, BitVec.getLsbD_append]
  by_cases h : i < 24
  · simp [h]
  · simp [h, hi]
    omega

/-! ### Multiples of 4 (10 R28, R45) -/

theorem low_zero_iff (w : Word) : bits w 0 2 = 0 ↔ w.toNat % 4 = 0 := by
  rw [← BitVec.toNat_inj]
  simp [bits]

theorem low_wordAligned (a : Word) : bits (wordAligned a) 0 2 = 0 := by
  apply BitVec.eq_of_getLsbD_eq
  intro i hi
  interval_cases i <;> simp [bits, wordAligned]

theorem low_add {a b : Word} (ha : bits a 0 2 = 0) (hb : bits b 0 2 = 0) : bits (a + b) 0 2 = 0 := by
  rw [low_zero_iff] at *
  rw [BitVec.toNat_add]
  omega

theorem low_shiftLeft (a : Word) : bits (a <<< 2) 0 2 = 0 := by
  apply BitVec.eq_of_getLsbD_eq
  intro i hi
  interval_cases i <;> simp [bits]

theorem low_jumpTarget {pc : Word} (h : bits pc 0 2 = 0) (abs : Bool) (disp : BitVec 16) :
    bits (jumpTarget abs disp pc) 0 2 = 0 := by
  cases abs with
  | true => exact low_shiftLeft _
  | false => exact low_add h (low_shiftLeft _)

theorem low_add_four {a : Word} (h : bits a 0 2 = 0) : bits (a + 4) 0 2 = 0 := low_add h rfl

theorem low_ite {c : Prop} [Decidable c] {a b : Word} (ha : bits a 0 2 = 0) (hb : bits b 0 2 = 0) :
    bits (if c then a else b) 0 2 = 0 := by
  split
  · exact ha
  · exact hb

/-! ### Bits within a mask -/

/-- All bits of w outside the mask are 0. -/
def Within (mask w : Word) : Prop := w &&& ~~~mask = 0

theorem within_iff {m w : Word} : Within m w ↔ ∀ i, i < 32 → w.getLsbD i = true → m.getLsbD i = true := by
  constructor
  · intro h i hi hw
    have := congrArg (fun x : Word => x.getLsbD i) h
    simpa [hw, hi] using this
  · intro h
    apply BitVec.eq_of_getLsbD_eq
    intro i hi
    cases hw : w.getLsbD i with
    | false => simp [hw]
    | true => simp [hi, h i hi hw]

theorem within_and (m w : Word) : Within m (w &&& m) := by simp [Within, BitVec.and_assoc]

theorem within_putBit {m w : Word} (h : Within m w) {k : Nat} (b : Bool) (hk : k < 32) (hm : m.getLsbD k = true) :
    Within m (putBit w k b) := by
  rw [within_iff] at h ⊢
  intro i hi hw
  rw [getLsbD_putBit w k i b hk] at hw
  split at hw
  · next e => exact e ▸ hm
  · exact h i hi hw

theorem within_putBits {n : Nat} {m w : Word} (h : Within m w) (lo : Nat) (v : BitVec n) (hn : n ≤ 32)
    (hm : ∀ i, i < n → m.getLsbD (lo + i) = true) : Within m (putBits w lo v) := by
  rw [within_iff] at h ⊢
  intro i hi hw
  rw [getLsbD_putBits w lo i v hi hn] at hw
  split at hw
  · next e =>
    have := hm (i - lo) (by omega)
    rwa [Nat.add_sub_cancel' e.1] at this
  · exact h i hi hw

theorem within_aluVNZC {a : Word} (h : Within aluMask a) (v n z c : Bool) : Within aluMask (aluVNZC a v n z c) :=
  within_putBit (within_putBit (within_putBit (within_putBit h v (by decide) rfl) n (by decide) rfl) z (by decide) rfl)
    c (by decide) rfl

/-- The reserved bits of CHC are 0 in the record of an access (45 R332). -/
theorem within_chcWord (cntl cr : BitVec 8) (l m t : Bool) (n : AbsReg) (v : Bool) :
    Within chcMask (chcWord cntl cr l m t n v) := by
  rw [within_iff]
  intro i hi hw
  have reserved : ∀ j, 10 ≤ j → j < 13 → (chcWord cntl cr l m t n v).getLsbD j = false := by
    intro j h1 h2
    show BitVec.getLsbD (w := 8 + 8 + 1 + 1 + 1 + 3 + 8 + 1 + 1) (cntl ++ cr ++ BitVec.ofBool l ++ BitVec.ofBool m ++
      BitVec.ofBool t ++ 0#3 ++ n ++ 0#1 ++ BitVec.ofBool v) j = false
    simp only [BitVec.getLsbD_append]
    interval_cases j <;> rfl
  by_cases h : 10 ≤ i ∧ i < 13
  · rw [reserved i h.1 h.2] at hw
    cases hw
  · have implemented : ∀ j < 32, ¬ (10 ≤ j ∧ j < 13) → chcMask.getLsbD j = true := by decide
    exact implemented i hi h

theorem within_or {m a b : Word} (ha : Within m a) (hb : Within m b) : Within m (a ||| b) := by
  rw [within_iff] at *
  intro i hi h
  rw [BitVec.getLsbD_or, Bool.or_eq_true] at h
  exact h.elim (ha i hi) (hb i hi)

theorem within_and_left {m a : Word} (h : Within m a) (b : Word) : Within m (a &&& b) := by
  rw [within_iff] at *
  intro i hi hw
  rw [BitVec.getLsbD_and, Bool.and_eq_true] at hw
  exact h i hi hw.1

theorem within_mono {m k w : Word} (h : Within k w) (hk : Within m k) : Within m w := by
  rw [within_iff] at *
  exact fun i hi hw => hk i hi (h i hi hw)

theorem within_ite {c : Prop} [Decidable c] {m a b : Word} (ha : Within m a) (hb : Within m b) :
    Within m (if c then a else b) := by
  split
  · exact ha
  · exact hb

theorem within_traceCopy {w : Word} (h : Within cpsMask w) : Within cpsMask (traceCopy w) :=
  within_putBit h _ (by decide) rfl

theorem within_trapCps {w : Word} (h : Within cpsMask w) : Within cpsMask (trapCps w) :=
  within_or (within_and_left h _) rfl

theorem within_cpsValue {s : State} (h : Within cpsMask s.cps) : Within opsMask (cpsValue s) :=
  within_putBit (within_mono h (rfl : Within opsMask cpsMask)) _ (by decide) rfl

/-- An indirect pointer has the bits of a register number alone (10 R46). -/
theorem within_pointerWord (n : AbsReg) : Within 0x3FC#32 (pointerWord n) := by
  rw [within_iff]
  intro i hi h
  have hn : i < 2 → (pointerWord n).getLsbD i = false := fun hlt => by
    simp [pointerWord, hlt]
  have hx : 10 ≤ i → (pointerWord n).getLsbD i = false := fun hle => by
    have : n.getLsbD (i - 2) = false := BitVec.getLsbD_of_ge n _ (by omega)
    simp [pointerWord, zext, this]
  by_cases h2 : i < 2
  · simp [hn h2] at h
  · by_cases h10 : 10 ≤ i
    · simp [hx h10] at h
    · clear hn hx h hi
      interval_cases i <;> rfl

/-- The low 24 bits of a word (10 R43, R44). -/
theorem within_zext24 (v : BitVec 24) : Within 0x00FFFFFF (zext v) := by
  rw [within_iff]
  intro i hi h
  by_cases h24 : i < 24
  · clear h
    interval_cases i <;> rfl
  · have : v.getLsbD i = false := BitVec.getLsbD_of_ge v _ (by omega)
    simp [zext, this] at h

end Sys2Proof.Machine
end

section
/-! PROOFS. What every instruction keeps: a property that each basic update of the tracked part carries on is carried through
the moves of the agents, the accesses of memory, the multiples and every instruction. The walk over the model is made here
once; the invariants of a step and the noninterference of User mode are three uses of it. -/

namespace Sys2Proof.Machine

/-- The next state of a result, if there is one, satisfies Q. -/
def Answers (Q : State → Prop) : Result → Prop
  | .next t => Q t
  | _ => True

theorem Answers.of_next {Q : State → Prop} {r : Result} {t : State} (h : Answers Q r) (e : r = .next t) : Q t := by
  subst e; exact h

/-- The value of an access that is done satisfies p. -/
def Access.Yields {α : Type} (p : α → Prop) : Access α → Prop
  | .done x => p x
  | _ => True

/-- A property of the tracked part that a store to memory keeps. -/
structure Framed (P : State → Prop) : Prop where
  frame : ∀ {s t}, P s → t.tracked = s.tracked → P t
  store : ∀ {s} (k : Nat) (bs : List Byte), P s → P { s with mem := Memory.putBytes s.mem k bs }

/-! ### Moves of the agents -/

namespace Framed

variable {P : State → Prop} (h : Framed P) {s : State}
include h

theorem storeAt (hs : P s) (opt : BitVec 3) (a v : Word) : P (s.storeAt opt a v) := h.store _ _ hs

theorem moveData (hs : P s) (x : Nat) (opt : BitVec 3) (a : Word) (req : Option Requester) :
    P (Machine.moveData s x opt a req) := by
  unfold Machine.moveData
  dsimp only
  split
  · split
    · exact h.frame hs (tracked_writePreg _ _ _ _)
    · exact h.storeAt (h.frame hs (tracked_readPreg _ _ _)) _ _ _
  · split
    · exact h.frame hs rfl
    · refine h.storeAt (s := _) ?_ _ _ _
      exact h.frame hs rfl

theorem dmaTransfer (hs : P s) (x : Nat) : Answers P (Machine.dmaTransfer s x) := by
  unfold Machine.dmaTransfer
  dsimp only
  split_ifs
  any_goals trivial
  split
  · exact h.frame (h.frame (h.moveData hs x _ _ _) (tracked_afterTransfer _ _ _)) rfl
  · trivial
  · trivial

theorem dmaMove (hs : P s) : Answers P (Machine.dmaMove s) := by
  unfold Machine.dmaMove
  split
  · exact h.dmaTransfer hs 0
  · split
    · exact h.dmaTransfer hs 1
    · exact hs

theorem masterMove (hs : P s) (a : Word) (d : Option Word) : Answers P (Machine.masterMove a d s) := by
  have access (w : Bool) (d : Option Word) : Answers P
      (match d with
       | none => .next { s with flight := none, outbox := .masterRead (wordAligned a) (wordAt s a) :: s.outbox }
       | some v => .next { (if w then s.storeAt 0 a v else s) with flight := none }) := by
    cases d with
    | none => exact h.frame hs rfl
    | some v =>
      cases w with
      | true => exact h.frame (h.storeAt hs 0 a v) rfl
      | false => exact h.frame hs rfl
  unfold Machine.masterMove
  dsimp only
  split
  · exact hs
  · split
    · split
      · split
        · trivial
        · exact access _ d
      · trivial
      · trivial
    · split
      · split
        · trivial
        · exact access true d
      · trivial
      · trivial
    · trivial

/-- Every move, a tick of the timer where the timer's advance keeps P. -/
theorem runMove (hs : P s) {m : Move} (ht : m = .tick → P (advanceTimer s)) : Answers P (Machine.runMove m s) := by
  cases m with
  | tick =>
    unfold Machine.runMove
    dsimp only
    split
    · exact h.frame (ht rfl) rfl
    · exact hs
  | dma => exact h.dmaMove hs
  | master a d => exact h.masterMove hs a d
  | pins | ppTick | vclk => exact h.frame hs rfl
  | pioSync => exact h.frame hs (tracked_syncPio s)
  | txLoad =>
    unfold Machine.runMove
    dsimp only
    split
    · exact hs
    · exact h.frame hs (tracked_showBit _)
  | uclk =>
    unfold Machine.runMove
    dsimp only
    split
    · exact h.frame hs (tracked_showBit _)
    · exact h.frame hs rfl
  | rxBit | idBus | tapIr | trst | tapCapture =>
    unfold Machine.runMove
    dsimp only
    split
    · exact h.frame hs rfl
    · exact h.frame hs rfl

end Framed

/-- Which events are still scheduled does not change in a move. -/
theorem framed_schedule (l : List Event) : Framed fun t => t.schedule = l where
  frame hs e := (congrArg Tracked.schedule e).trans hs
  store _ _ hs := hs

theorem runMove_schedule {m : Move} {s t : State} (h : runMove m s = .next t) : t.schedule = s.schedule :=
  ((framed_schedule s.schedule).runMove rfl fun _ => rfl).of_next h

/-! ### Accesses of memory -/

namespace Framed

variable {P : State → Prop} (h : Framed P) {s : State}
include h

theorem putReg (hs : P s) (k : Bool) (n : AbsReg) (v : Word) : P (s.putReg k n v) := h.frame hs rfl

theorem writeReg (hs : P s) {k : Bool} {n : AbsReg} {v : Word} {t : State} (e : Machine.writeReg k n v s = some t) :
    P t := by
  obtain ⟨-, rfl⟩ := writeReg_some e
  exact h.putReg hs k n v

theorem memRead (hs : P s) (opt : BitVec 3) (sb : Bool) (a : Word) :
    (Machine.memRead s opt sb a).Yields fun p => P p.2 := by
  unfold Machine.memRead
  split_ifs
  · exact hs
  · trivial
  split
  · trivial
  unfold loadFrom
  split
  · exact hs
  · split <;> exact hs
  · exact h.frame hs rfl
  · unfold periphLoad
    split
    · next r e =>
      split at e
      · cases e
      · cases e; exact h.frame hs (tracked_readPreg _ _ _)
    · trivial
    · trivial
  · exact h.frame hs rfl
  all_goals trivial

theorem storeMem (hs : P s) (r : StoreReq) (p : Word) : (Machine.storeMem s r p).Yields P := by
  unfold Machine.storeMem
  split
  · trivial
  · exact h.storeAt hs _ _ _

theorem memStore (hs : P s) (r : StoreReq) : (Machine.memStore s r).Yields P := by
  unfold Machine.memStore
  split_ifs
  · exact h.frame hs rfl
  · exact hs
  · trivial
  split
  · trivial
  unfold storeTo
  split
  · split_ifs
    · trivial
    · exact h.storeMem hs r _
    · exact hs
  · split
    · trivial
    · exact h.storeMem hs r _
  · exact h.frame hs rfl
  · unfold periphStore
    split
    · next t e =>
      repeat' split at e
      all_goals cases e
      exact h.frame hs (tracked_writePreg _ _ _ _)
    · trivial
    · trivial
  · exact h.frame hs rfl
  all_goals trivial

/-- One transfer of a multiple. -/
theorem transfer (hs : P s) (load : Bool) (l : List Word) (n : AbsReg) (a : Word) :
    (Machine.transfer load l n a s).Yields P := by
  unfold Machine.transfer
  split
  · have hr := h.memRead hs 0 false a
    split
    · next p e =>
      rw [e] at hr
      split
      · next t ht => exact h.writeReg hr ht
      · trivial
    all_goals trivial
  · exact h.memStore hs _

end Framed

/-! ### Instructions -/

/-- P is carried through an instruction by each basic update it makes, and Q holds where the instruction ends: with P, or
in the handler of a trap. Updates of ALU Status and CHC keep the reserved bits. A tick of the timer or a RESET between the
transfers of a multiple counts where it is the next event of the schedule. -/
structure Carried (P Q : State → Prop) : Prop extends Framed P where
  ends : ∀ {s}, P s → Q s
  trap : ∀ {s} (a : Word), P s → Q (enterHandler a (saveStatus (saveContext s)))
  finish : ∀ {s}, P s → P (finish s)
  branch : ∀ {s} (abs : Bool) (disp : BitVec 16), P s → P (finishTo (jumpTarget abs disp s.pc) s)
  jump : ∀ {s} (a : Word), P s → P (finishTo (wordAligned a) s)
  setAlu : ∀ {s} {a : Word}, P s → (Within aluMask s.alu → Within aluMask a) → P { s with alu := a }
  setChc : ∀ {s} {c : Word}, P s → (Within chcMask s.chc → Within chcMask c) → P { s with chc := c }
  setPointers : ∀ {s} (n : Numbers), P s → P (s.setPointers n)
  sprWrite : ∀ {s} {n : SprNum} (v : Word), P s → sprViolation s n = false → P (sprWrite n v s)
  restore : ∀ {s}, P s → s.sm = true → P (restoreContext s.openPcs)
  dropEvent : ∀ {s e r}, P s → s.schedule = e :: r → P { s with schedule := r }
  midTick : ∀ {s r}, P s → s.schedule = .mid .tick :: r → P (advanceTimer { s with schedule := r })
  midReset : ∀ {s r}, P s → s.schedule = .midReset :: r → Q (resetPin { s with schedule := r })

/-! ### Traps, checks and results -/

namespace Carried

variable {P Q : State → Prop} (h : Carried P Q) {s : State}
include h

theorem enter (hs : P s) : P s.enter := h.frame hs rfl

theorem launch (hs : P s) (f : Option Flight) : P (s.launch f) := h.frame hs rfl

theorem setQ (hs : P s) (v : Word) : P { s with q := v } := h.frame hs rfl

theorem finished (hs : P s) : Answers Q (.next (Machine.finish s)) := h.ends (h.finish hs)

theorem takeTrap (hs : P s) (vn : VecNum) : Answers Q (Machine.takeTrap vn s) := by
  unfold Machine.takeTrap
  split
  · trivial
  · exact h.trap _ hs

theorem trapCurr (hs : P s) (vn : VecNum) : Answers Q (Machine.trapCurr vn s) := by
  unfold Machine.trapCurr
  split
  · trivial
  · exact h.takeTrap hs vn

theorem trapLeaving {leave : State → State} (hl : P (leave s)) (vn : VecNum) :
    Answers Q (Machine.trapLeaving leave vn s) := h.takeTrap (s := (leave s).withSettle s.fzSettle) (h.frame hl rfl) vn

theorem trapNext (hs : P s) (vn : VecNum) : Answers Q (Machine.trapNext vn s) := by
  unfold Machine.trapNext
  split
  · exact h.finished hs
  · exact h.trapLeaving (h.finish hs) vn

theorem trapAccess (hs : P s) (vn : VecNum) : Answers Q (Machine.trapAccess vn s) := by
  unfold Machine.trapAccess
  split
  · trivial
  · exact h.trapNext hs vn

theorem guarded (hs : P s) {v : Bool} {k : Result} (hk : v = false → Answers Q k) :
    Answers Q (Machine.guarded v s k) := by
  cases v with
  | false => exact hk rfl
  | true => exact h.trapCurr hs vProtection

theorem withRRM (hs : P s) {rc ra : RegNum} {b : SrcB} {k : AbsReg → Word → Word → State → Result}
    (hk : ∀ c x y t, P t → Answers Q (k c x y t)) : Answers Q (Machine.withRRM rc ra b s k) := by
  unfold Machine.withRRM
  split
  · trivial
  · exact h.guarded hs fun _ => hk _ _ _ _ (h.enter hs)

theorem withAB (hs : P s) {ra : RegNum} {b : SrcB} {k : Word → Word → State → Result}
    (hk : ∀ x y t, P t → Answers Q (k x y t)) : Answers Q (Machine.withAB ra b s k) := by
  unfold Machine.withAB
  split
  · trivial
  · exact h.guarded hs fun _ => hk _ _ _ (h.enter hs)

theorem withRM (hs : P s) {rc : RegNum} {b : SrcB} {k : AbsReg → Word → State → Result}
    (hk : ∀ c y t, P t → Answers Q (k c y t)) : Answers Q (Machine.withRM rc b s k) := by
  unfold Machine.withRM
  split
  · exact h.guarded hs fun _ => hk _ _ _ (h.enter hs)
  · trivial

theorem writeThen (hs : P s) {al : Bool} {c : AbsReg} {v : Word} {k : State → Result}
    (hk : ∀ t, P t → t.pc = s.pc → Answers Q (k t)) : Answers Q (Machine.writeThen al c v s k) := by
  unfold Machine.writeThen
  split
  · trivial
  · next t e =>
    obtain ⟨-, rfl⟩ := writeReg_some e
    exact hk _ (h.putReg hs al c v) rfl

theorem writeFinish (hs : P s) (al : Bool) (c : AbsReg) (v : Word) : Answers Q (Machine.writeFinish al c v s) :=
  h.writeThen hs fun _ ht _ => h.finished ht

end Carried

/-- P holds where a gap of a multiple goes on, Q where a RESET ended it. -/
def Gap.Yields (P Q : State → Prop) : Gap → Prop
  | .go t => P t
  | .reset t => Q t
  | _ => True

namespace Carried

variable {P Q : State → Prop} (h : Carried P Q) {s : State}
include h

theorem setArithFlags (hs : P s) (a : AddResult) (w : Word) : P (s.setArithFlags a w) :=
  h.setAlu hs fun ha => within_ite ha (within_aluVNZC ha _ _ _ _)

theorem setLogicFlags (hs : P s) (r : Word) : P (s.setLogicFlags r) :=
  h.setAlu hs fun ha => within_ite ha (within_putBit (within_putBit ha _ (by decide) rfl) _ (by decide) rfl)

theorem setDf (hs : P s) (b : Bool) : P (s.setDf b) :=
  h.setAlu hs fun ha => within_ite ha (within_putBit ha _ (by decide) rfl)

theorem setDiv0Flags (hs : P s) (y d : Word) : P (s.setDiv0Flags y d) :=
  h.setAlu hs fun ha => within_ite ha (within_putBit (within_aluVNZC ha _ _ _ _) _ (by decide) rfl)

theorem setBp (hs : P s) (sb : Bool) : P (s.setBp sb) :=
  h.setAlu hs fun ha => within_ite (within_putBits ha 5 3#2 (by decide) (by decide)) ha

theorem setCv (hs : P s) (b : Bool) : P (s.setCv b) :=
  h.setChc hs fun hc => within_ite hc (within_putBit hc _ (by decide) rfl)

theorem record (hs : P s) (a d : Word) {c : Word} (hc : Within chcMask c) : P (s.record a d c) := by
  have : P { s with chc := if s.fz then s.chc else c } := h.setChc hs fun hw => within_ite hw hc
  exact h.frame this rfl

theorem recordTransfer (hs : P s) (load : Bool) (cntl : BitVec 8) (left : Nat) (n : AbsReg) (a : Word) :
    P (Machine.recordTransfer load cntl left n a s) := h.record hs _ _ (within_chcWord _ _ _ _ _ _ _)

theorem endMultiple (hs : P s) : P (Machine.endMultiple s) := by
  have : P { s with chc := putBits (putBit s.chc 0 false) 16 (bits (s.freeWord 5) 0 8 : BitVec 8) } :=
    h.setChc hs fun hc => within_putBits (within_putBit hc _ (by decide) rfl) 16 _ (by decide) (by decide)
  exact h.frame this rfl

/-! ### Single accesses -/

theorem andThen {α : Type} {p : α → Prop} {x : Access α} {k : α → Result} (hs : P s) (hx : x.Yields p)
    (hk : ∀ v, p v → Answers Q (k v)) : Answers Q (x.andThen s k) := by
  cases x with
  | done v => exact hk v hx
  | trap vn => exact h.trapAccess (h.setCv hs true) vn
  | fault => trivial
  | refuse => trivial

theorem withAccess (hs : P s) {cntl : BitVec 8} {ra : RegNum} {b : SrcB} {k : AbsReg → Word → State → Result}
    (hk : ∀ n a t, P t → Answers Q (k n a t)) : Answers Q (Machine.withAccess cntl ra b s k) := by
  unfold Machine.withAccess
  split
  · trivial
  · refine h.guarded hs fun _ => ?_
    split
    · trivial
    · exact hk _ _ _ (h.frame (h.setBp (h.enter hs) _) rfl)

theorem loadFinish (hs : P s) (opt : BitVec 3) (n : AbsReg) (v : Word) : Answers Q (Machine.loadFinish opt n v s) := by
  unfold Machine.loadFinish
  split
  · exact h.finished hs
  · exact h.writeFinish hs _ _ _

theorem runLoad (hs : P s) (cntl : BitVec 8) (ra : RegNum) (b : SrcB) : Answers Q (Machine.runLoad cntl ra b s) :=
  h.withAccess hs fun n a t ht => by
    have hr := h.record ht a (t.freeWord 7) (within_chcWord cntl t.cr true false false n false)
    exact h.andThen hr (h.memRead hr _ _ _) fun p hp => h.loadFinish (h.launch hp _) _ _ _

theorem runLoadSet (hs : P s) (cntl : BitVec 8) (ra : RegNum) (b : SrcB) :
    Answers Q (Machine.runLoadSet cntl ra b s) :=
  h.withAccess hs fun n a t ht => by
    have hr := h.record ht a (t.freeWord 7) (within_chcWord cntl t.cr true false true n false)
    exact h.andThen hr (h.memRead hr _ _ _) fun p hp =>
      h.andThen hp (h.memStore hp _) fun u hu => h.loadFinish (h.launch hu _) _ _ _

theorem runStore (hs : P s) (cntl : BitVec 8) (ra : RegNum) (b : SrcB) : Answers Q (Machine.runStore cntl ra b s) :=
  h.withAccess hs fun n a t ht => by
    have hr := h.record ht a (replicateData (cntlOpt cntl) (readReg 3 n s))
      (within_chcWord cntl t.cr false false false n false)
    exact h.andThen hr (h.memStore hr _) fun u hu => h.finished (h.launch hu _)

/-! ### Multiples -/

/-- What other agents do in a gap, along the schedule. -/
theorem drainMid (l : List Event) (hs : P s) (hl : s.schedule = l) : (Machine.drainMid l s).Yields P Q := by
  induction l generalizing s with
  | nil => exact hs
  | cons e r ih =>
    have hd : P { s with schedule := r } := h.dropEvent hs hl
    cases e with
    | mid m =>
      unfold Machine.drainMid
      split
      · exact hs
      · split
        · next t ht =>
          have moved := h.runMove hd (m := m) fun e => h.midTick hs (e ▸ hl)
          exact ih (moved.of_next ht) (runMove_schedule ht)
        · trivial
        · trivial
    | midCntl v =>
      exact ih (h.frame hd (tracked_deferCntl v _)) (congrArg Tracked.schedule (tracked_deferCntl v _))
    | midReset => exact h.midReset hs hl
    | gap => exact hd
    | core | warn | agent | reset | cntl => exact hs

theorem leave (hs : P s) (q : Sequence) : P (q.leave s) := by
  cases q with
  | fresh => exact h.finish hs
  | resumed => exact hs

theorem protectedMid (hs : P s) : Answers Q (Machine.protectedMid s) := by
  have : P { s with chc := s.freeWord 7 &&& chcMask } := h.setChc hs fun _ => within_and _ _
  refine h.trapCurr ?_ vProtection
  exact h.frame this rfl

theorem transfersLeft (load : Bool) (cntl : BitVec 8) (q : Sequence) (left : Nat) (n : AbsReg) (a : Word) (hs : P s) :
    Answers Q (Machine.transfersLeft load cntl q left n a s) := by
  induction left generalizing n a s with
  | zero => exact h.ends (h.leave (h.endMultiple hs) q)
  | succ left ih =>
    unfold Machine.transfersLeft
    have hg := h.drainMid _ (s := { s.reserve with multiple := some ⟨load, cntl, q, left + 1, n, a⟩ })
      (h.frame hs rfl) rfl
    split
    · trivial
    · trivial
    · next g e => exact (congrArg (Gap.Yields P Q) e).mp hg
    · next g e =>
      have hg : P g := (congrArg (Gap.Yields P Q) e).mp hg
      have hg' : P { g with multiple := s.multiple } := h.frame hg rfl
      have ht := h.recordTransfer hg' load cntl left n a
      have cut : P (cutShort q (Machine.recordTransfer load cntl left n a { g with multiple := s.multiple })) :=
        h.frame (h.leave (h.setCv ht true) q) rfl
      split
      · exact h.ends hg
      dsimp only
      split
      · exact h.ends cut
      split
      · exact h.protectedMid hg'
      split
      · exact h.trapLeaving (h.leave (h.setCv ht true) q) _
      have hx := h.transfer ht load (q.ahead (Machine.recordTransfer load cntl left n a
        { g with multiple := s.multiple })) n a
      split
      · next u e => exact ih _ _ ((congrArg (Access.Yields P) e).mp hx)
      · split
        · trivial
        split
        · exact h.ends cut
        · exact h.trapLeaving (h.leave (h.setCv ht true) q) _
      · trivial
      · trivial

theorem runMultiple (hs : P s) (load : Bool) (cntl : BitVec 8) (ra : RegNum) (b : SrcB) :
    Answers Q (Machine.runMultiple load cntl ra b s) := by
  unfold Machine.runMultiple
  split
  · trivial
  · refine h.guarded hs fun _ => ?_
    split_ifs
    any_goals trivial
    exact h.transfersLeft load cntl .fresh _ _ _ (h.frame (h.setBp (h.enter hs) _) rfl)

/-! ### Returns -/

theorem restartTrap (hs : P s) (vn : VecNum) : Answers Q (Machine.restartTrap vn s) := by
  unfold Machine.restartTrap
  split_ifs
  · trivial
  · exact h.ends (h.frame hs rfl)
  · exact h.takeTrap hs vn

theorem restart {α : Type} {p : α → Prop} {x : Access α} {k : α → Result} (hs : P s) (hx : x.Yields p)
    (hk : ∀ v, p v → Answers Q (k v)) : Answers Q (x.restart s k) := by
  cases x with
  | done v => exact hk v hx
  | trap vn => exact h.restartTrap hs vn
  | fault => trivial
  | refuse => trivial

theorem restartDone (hs : P s) (f : Option Flight) : Answers Q (Machine.restartDone f s) :=
  h.ends (h.frame (h.setCv hs false) rfl)

theorem restartWrite (hs : P s) (f : Option Flight) (n : AbsReg) (v : Word) :
    Answers Q (Machine.restartWrite f n v s) := by
  unfold Machine.restartWrite
  split
  · next t e => exact h.restartDone (h.writeReg hs e) f
  · trivial

theorem restartAccess (hs : P s) : Answers Q (Machine.restartAccess s) := by
  unfold Machine.restartAccess
  dsimp only
  split
  · refine h.restart hs (h.memRead hs _ _ _) fun p hp => ?_
    split
    · exact h.restart hp (h.memStore hp _) fun u hu => h.restartWrite hu _ _ _
    · exact h.restartWrite hp _ _ _
  · exact h.restart hs (h.memStore hs _) fun u hu => h.restartDone hu _

theorem resumeMultiple (hs : P s) : Answers Q (Machine.resumeMultiple s) := by
  unfold Machine.resumeMultiple
  dsimp only
  split
  · trivial
  · refine h.restart hs (p := P) ?_ fun u hu => h.transfersLeft _ _ _ _ _ _ hu
    unfold resumeFirst
    split
    · exact h.transfer hs _ _ _ _
    · exact h.memStore hs _

theorem interruptReturn (hs : P s) (hm : s.sm = true) : Answers Q (Machine.interruptReturn s) := by
  have ht : P (restoreContext s.openPcs).reserve := h.frame (h.restore hs hm) rfl
  unfold Machine.interruptReturn
  dsimp only
  split_ifs
  · exact h.resumeMultiple ht
  · exact h.restartAccess ht
  · exact h.ends ht

/-! ### Families of instructions -/

theorem runAdd (hs : P s) (chk : RangeCheck) (f : Word → Word → State → AddResult) (rc ra : RegNum) (b : SrcB) :
    Answers Q (Machine.runAdd chk f rc ra b s) :=
  h.withRRM hs fun c x y t ht => h.writeThen ht fun u hu _ => by
    dsimp only
    split
    · exact h.trapNext (h.setArithFlags hu _ _) _
    · exact h.finished (h.setArithFlags hu _ _)

theorem runMulStep (hs : P s) (add : Word → Word → AddResult) (top : AddResult → Bool) (rc ra : RegNum) (b : SrcB) :
    Answers Q (Machine.runMulStep add top rc ra b s) :=
  h.withRRM hs fun _ _ _ _ ht => h.writeThen (h.setQ ht _) fun _ hu _ => h.finished (h.setArithFlags hu _ _)

theorem runDivStep (hs : P s) (shift : Bool) (rc ra : RegNum) (b : SrcB) :
    Answers Q (Machine.runDivStep shift rc ra b s) :=
  h.withRRM hs fun _ _ _ _ ht => h.writeThen (h.setQ ht _) fun _ hu _ =>
    h.finished (h.setDf (h.setArithFlags hu _ _) _)

theorem execDiv0 (hs : P s) (rc : RegNum) (b : SrcB) : Answers Q (Machine.execDiv0 rc b s) :=
  h.withRM hs fun _ _ _ ht => h.writeThen (h.setQ ht _) fun _ hu _ => h.finished (h.setDiv0Flags hu _ _)

theorem execDivrem (hs : P s) (rc ra : RegNum) (b : SrcB) : Answers Q (Machine.execDivrem rc ra b s) :=
  h.withRRM hs fun _ _ _ _ ht => h.writeThen ht fun _ hu _ => h.finished (h.setArithFlags hu _ _)

theorem runCompare (hs : P s) (rel : Word → Word → Bool) (rc ra : RegNum) (b : SrcB) :
    Answers Q (Machine.runCompare rel rc ra b s) :=
  h.withRRM hs fun _ _ _ _ ht => h.writeFinish ht _ _ _

theorem runAssert (hs : P s) (rel : Word → Word → Bool) (vn : VecNum) (ra : RegNum) (b : SrcB) :
    Answers Q (Machine.runAssert rel vn ra b s) :=
  h.withAB hs fun x y t ht => by
    split_ifs
    · exact h.finished ht
    · exact h.trapCurr ht _
    · exact h.trapNext ht _

theorem runLogical (hs : P s) (f : Word → Word → Word) (rc ra : RegNum) (b : SrcB) :
    Answers Q (Machine.runLogical f rc ra b s) :=
  h.withRRM hs fun _ _ _ _ ht => h.writeThen ht fun _ hu _ => h.finished (h.setLogicFlags hu _)

theorem runPlain (hs : P s) (f : Word → Word → State → Word) (rc ra : RegNum) (b : SrcB) :
    Answers Q (Machine.runPlain f rc ra b s) :=
  h.withRRM hs fun _ _ _ _ ht => h.writeFinish ht _ _ _

theorem execExhws (hs : P s) (rc ra : RegNum) : Answers Q (Machine.execExhws rc ra s) := by
  unfold Machine.execExhws
  split
  · exact h.guarded hs fun _ => h.writeFinish (h.enter hs) _ _ _
  · trivial

theorem execClz (hs : P s) (rc : RegNum) (b : SrcB) : Answers Q (Machine.execClz rc b s) :=
  h.withRM hs fun _ _ _ ht => h.writeFinish ht _ _ _

theorem runConst (hs : P s) (f : Word → Word) (ra : RegNum) : Answers Q (Machine.runConst f ra s) := by
  unfold Machine.runConst
  split
  · exact h.guarded hs fun _ => h.writeFinish (h.enter hs) _ _ _
  · trivial

theorem runTrapping (hs : P s) (op : BitVec 8) (rc ra rb : RegNum) : Answers Q (Machine.runTrapping op rc ra rb s) := by
  unfold Machine.runTrapping
  split
  · trivial
  · exact h.guarded hs fun _ => h.trapNext (h.setPointers _ (h.enter hs)) _

theorem execSetip (hs : P s) (rc ra rb : RegNum) : Answers Q (Machine.execSetip rc ra rb s) := by
  unfold Machine.execSetip
  split
  · trivial
  · exact h.guarded hs fun _ => h.finished (h.setPointers _ (h.enter hs))

theorem execEmulate (hs : P s) (vn : VecNum) (ra rb : RegNum) : Answers Q (Machine.execEmulate vn ra rb s) := by
  unfold Machine.execEmulate
  split
  · exact h.guarded hs fun _ => h.trapNext (h.setPointers _ (h.enter hs)) _
  · trivial

theorem execMfsr (hs : P s) (rc : RegNum) (sa : SprNum) : Answers Q (Machine.execMfsr rc sa s) := by
  refine h.guarded hs fun _ => ?_
  split
  · exact h.guarded hs fun _ => h.writeFinish (h.enter hs) _ _ _
  · trivial

theorem execMtsr (hs : P s) (sa : SprNum) (rb : RegNum) : Answers Q (Machine.execMtsr sa rb s) := by
  refine h.guarded hs fun hv => ?_
  split
  · exact h.guarded hs fun _ => h.finished (h.sprWrite _ (h.enter hs) hv)
  · trivial

theorem execMtsrim (hs : P s) (sa : SprNum) (imm : BitVec 16) : Answers Q (Machine.execMtsrim sa imm s) :=
  h.guarded hs fun hv => h.finished (h.sprWrite _ (h.enter hs) hv)

theorem runPrivilegedNop (hs : P s) : Answers Q (Machine.runPrivilegedNop s) :=
  h.guarded hs fun _ => h.finished (h.enter hs)

theorem execIret (hs : P s) : Answers Q (Machine.execIret s) :=
  h.guarded hs fun hv => h.interruptReturn hs (by simpa using hv)

theorem execHalt (hs : P s) : Answers Q (Machine.execHalt s) := by
  refine h.guarded hs fun _ => h.ends ?_
  unfold haltOrTrap
  split
  · exact h.finish (h.enter hs)
  · exact h.frame (h.finish (h.enter hs)) rfl

/-! ### Branches -/

theorem branchTo (hs : P s) {taken : Bool} {target : Word} (ht : P (finishTo target s)) :
    P (Machine.branchTo taken target s) := by
  unfold Machine.branchTo
  split
  · exact ht
  · exact h.finish hs

theorem writeBranch (hs : P s) {n : AbsReg} {v target : Word} {taken : Bool}
    (ht : ∀ t, P t → t.pc = s.pc → P (finishTo target t)) : Answers Q (Machine.writeBranch n v taken target s) :=
  h.writeThen hs fun t hp e => h.ends (h.branchTo hp (ht t hp e))

/-- The target of a direct branch from the instruction's own address. -/
theorem branchFrom {t : State} (ht : P t) (e : t.pc = s.pc) (abs : Bool) (disp : BitVec 16) :
    P (finishTo (jumpTarget abs disp s.pc) t) := e ▸ h.branch abs disp ht

theorem execJmp (hs : P s) (abs : Bool) (disp : BitVec 16) : Answers Q (Machine.execJmp abs disp s) :=
  h.ends (h.branchTo (h.enter hs) (h.branchFrom (h.enter hs) rfl abs disp))

theorem runJumpIf (hs : P s) (sense abs : Bool) (ra : RegNum) (disp : BitVec 16) :
    Answers Q (Machine.runJumpIf sense abs ra disp s) := by
  unfold Machine.runJumpIf
  split
  · exact h.guarded hs fun _ => h.ends (h.branchTo (h.enter hs) (h.branchFrom (h.enter hs) rfl abs disp))
  · trivial

theorem execJmpi (hs : P s) (rb : RegNum) : Answers Q (Machine.execJmpi rb s) := by
  unfold Machine.execJmpi
  split
  · exact h.guarded hs fun _ => h.ends (h.branchTo (h.enter hs) (h.jump _ (h.enter hs)))
  · trivial

theorem runJumpIfReg (hs : P s) (sense : Bool) (ra rb : RegNum) :
    Answers Q (Machine.runJumpIfReg sense ra rb s) := by
  unfold Machine.runJumpIfReg
  split
  · exact h.guarded hs fun _ => h.ends (h.branchTo (h.enter hs) (h.jump _ (h.enter hs)))
  · trivial

theorem execJmpfdec (hs : P s) (abs : Bool) (ra : RegNum) (disp : BitVec 16) :
    Answers Q (Machine.execJmpfdec abs ra disp s) := by
  unfold Machine.execJmpfdec
  split
  · exact h.guarded hs fun _ => h.writeBranch (h.enter hs) fun t ht e => h.branchFrom ht e abs disp
  · trivial

theorem execCall (hs : P s) (abs : Bool) (ra : RegNum) (disp : BitVec 16) :
    Answers Q (Machine.execCall abs ra disp s) := by
  unfold Machine.execCall
  split
  · exact h.guarded hs fun _ => h.writeBranch (h.enter hs) fun t ht e => h.branchFrom ht e abs disp
  · trivial

theorem execCalli (hs : P s) (ra rb : RegNum) : Answers Q (Machine.execCalli ra rb s) := by
  unfold Machine.execCalli
  split
  · exact h.guarded hs fun _ => h.writeBranch (h.enter hs) fun t ht _ => h.jump _ ht
  · trivial

/-! ### All instructions -/

theorem exec (hs : P s) (i : Instr) : Answers Q (Machine.exec i s) := by
  cases i <;> dsimp only [Machine.exec]
  case constn | consth | const => exact h.runConst hs _ _
  case mtsrim => exact h.execMtsrim hs _ _
  case mtsr => exact h.execMtsr hs _ _
  case mfsr => exact h.execMfsr hs _ _
  case load | loadl => exact h.runLoad hs _ _ _
  case loadset => exact h.runLoadSet hs _ _ _
  case store | storel => exact h.runStore hs _ _ _
  case loadm | storem => exact h.runMultiple hs _ _ _ _
  case clz => exact h.execClz hs _ _
  case add | adds | addu | addc | addcs | addcu | sub | subs | subu | subc | subcs | subcu | subr | subrs | subru
      | subrc | subrcs | subrcu =>
    exact h.runAdd hs _ _ _ _ _
  case mul | mull | mulu => exact h.runMulStep hs _ _ _ _ _
  case div0 => exact h.execDiv0 hs _ _
  case div | divl => exact h.runDivStep hs _ _ _ _
  case divrem => exact h.execDivrem hs _ _ _
  case cpeq | cpneq | cplt | cpltu | cple | cpleu | cpgt | cpgtu | cpge | cpgeu | cpbyte =>
    exact h.runCompare hs _ _ _ _
  case aseq | asneq | aslt | asltu | asle | asleu | asgt | asgtu | asge | asgeu => exact h.runAssert hs _ _ _ _
  case and | andn | nand | nor | or | xnor | xor => exact h.runLogical hs _ _ _ _
  case sll | srl | sra | extract | exbyte | exhw | inbyte | inhw => exact h.runPlain hs _ _ _ _
  case exhws => exact h.execExhws hs _ _
  case iret | iretinv => exact h.execIret hs
  case halt => exact h.execHalt hs
  case inv | mftlb | mttlb => exact h.runPrivilegedNop hs
  case setip => exact h.execSetip hs _ _ _
  case emulate => exact h.execEmulate hs _ _ _
  case jmp => exact h.execJmp hs _ _
  case jmpt | jmpf => exact h.runJumpIf hs _ _ _ _
  case jmpi => exact h.execJmpi hs _
  case jmpti | jmpfi => exact h.runJumpIfReg hs _ _ _
  case jmpfdec => exact h.execJmpfdec hs _ _ _
  case call => exact h.execCall hs _ _ _
  case calli => exact h.execCalli hs _ _
  case multm | multmu | multiply | divide | multiplu | dividu | sqrt | cls | feq | deq | fgt | dgt | fge | dge
      | fadd | dadd | fsub | dsub | fmul | dmul | fdiv | ddiv | fdmul | convert =>
    exact h.runTrapping hs _ _ _ _

end Carried

end Sys2Proof.Machine
end

section
/-! PROOFS. What every step keeps: a property that the basic updates of a step carry on holds after every event of the
schedule. -/

namespace Sys2Proof.Machine

/-- Each basic update that a step makes of the tracked part keeps P. -/
structure Stepwise (P : State → Prop) : Prop extends Framed P where
  handler : ∀ {s} (a : Word), P s → P (enterHandler a (saveStatus s))
  savePcs : ∀ {s}, P s → P (savePcs s)
  openSaved : ∀ {s}, P s → P (openSaved s)
  floatPcs : ∀ {s : State}, P s → P s.floatPcs
  finish : ∀ {s}, P s → P (finish s)
  branch : ∀ {s} (abs : Bool) (disp : BitVec 16), P s → P (finishTo (jumpTarget abs disp s.pc) s)
  jump : ∀ {s} (a : Word), P s → P (finishTo (wordAligned a) s)
  setAlu : ∀ {s} {a : Word}, P s → (Within aluMask s.alu → Within aluMask a) → P { s with alu := a }
  setChc : ∀ {s} {c : Word}, P s → (Within chcMask s.chc → Within chcMask c) → P { s with chc := c }
  setPointers : ∀ {s} (n : Numbers), P s → P (s.setPointers n)
  sprWrite : ∀ {s} (n : SprNum) (v : Word), P s → P (sprWrite n v s)
  restoreContext : ∀ {s}, P s → P (restoreContext s)
  setSchedule : ∀ {s} (l : List Event), P s → P { s with schedule := l }
  advanceTimer : ∀ {s}, P s → P (advanceTimer s)
  resetPin : ∀ {s}, P s → P (resetPin s)
  forced : ∀ {s : State}, P s → P s.forced
  injected : ∀ {s t} (jump writes : Bool), P s → P t → P (injectedCps writes s (injectedPc jump s t))

theorem Answers.onNext {P Q : State → Prop} {f : State → State} {r : Result} (h : Answers P r)
    (hf : ∀ t, P t → Q (f t)) : Answers Q (Machine.onNext f r) := by
  cases r with
  | next t => exact hf t h
  | fault => trivial
  | refused => trivial

theorem Answers.thenNext {P Q : State → Prop} {k : State → Result} {r : Result} (h : Answers P r)
    (hk : ∀ t, P t → Answers Q (k t)) : Answers Q (Machine.thenNext r k) := by
  cases r with
  | next t => exact hk t h
  | fault => trivial
  | refused => trivial

namespace Stepwise

variable {P : State → Prop} (h : Stepwise P) {s : State}
include h

theorem saveContext (hs : P s) : P (Machine.saveContext s) := by
  unfold Machine.saveContext
  split
  · exact h.openSaved hs
  · exact h.savePcs hs

theorem openPcs (hs : P s) : P s.openPcs := by
  rcases openPcs_cases s with e | e <;> rw [e]
  · exact h.openSaved hs
  · exact h.floatPcs hs

/-- Every instruction keeps P. -/
theorem carried : Carried P P where
  toFramed := h.toFramed
  ends hs := hs
  trap a hs := h.handler a (h.saveContext hs)
  finish := h.finish
  branch := h.branch
  jump := h.jump
  setAlu := h.setAlu
  setChc := h.setChc
  setPointers := h.setPointers
  sprWrite v hs _ := h.sprWrite _ v hs
  restore hs _ := h.restoreContext (h.openPcs hs)
  dropEvent hs _ := h.setSchedule _ hs
  midTick hs _ := h.advanceTimer (h.setSchedule _ hs)
  midReset hs _ := h.resetPin (h.setSchedule _ hs)

/-! ### The core -/

theorem cutOff (hs : P s) : P (Machine.cutOff s) := by
  unfold Machine.cutOff
  split
  · exact hs
  next f _ =>
  split
  · have hm : P { s with mem := f.restore (s.freeBool 1) s.mem } := by
      unfold Flight.restore
      split
      · split
        · exact h.store _ _ hs
        · exact hs
      · exact hs
    have hc : P { s with
        mem := f.restore (s.freeBool 1) s.mem
        chc := if s.fz then s.chc else putBit (putBit s.chc 0 true) 1 (!f.needed) } :=
      h.setChc hm fun hw => within_ite hw (within_putBit (within_putBit hw _ (by decide) rfl) _ (by decide) rfl)
    dsimp only
    split
    · split
      · exact h.frame hc rfl
      · exact h.frame hc rfl
    · exact h.frame hc rfl
  · exact h.frame hs rfl

theorem takeWarn (hs : P s) : P (Machine.takeWarn s) := by
  unfold Machine.takeWarn
  refine h.handler _ ?_
  have hw : P { warnPeripherals (Machine.cutOff s) with
      warnLatch := false, mode := .executing, dbg := s.dbg.quiet } := by
    refine h.frame (h.frame (h.cutOff hs) (tracked_warnPeripherals _)) ?_
    rfl
  unfold warnContext
  split
  · exact hw
  · exact h.saveContext hw

theorem runInstr (hs : P s) (i : Instr) : Answers P (Machine.runInstr i s) :=
  (h.carried.exec hs i).onNext fun t ht => by
    unfold trackFlight
    split
    · exact ht
    · exact h.frame ht rfl

theorem fetchAndRun (hs : P s) : Answers P (Machine.fetchAndRun s) := by
  unfold Machine.fetchAndRun
  split
  · unfold runWord
    split
    · exact h.runInstr hs _
    · exact h.carried.runTrapping hs _ _ _ _
    · exact h.carried.trapCurr hs _
  · exact h.carried.trapCurr hs _
  · trivial

theorem coreCycle (hs : P s) : Answers P (Machine.coreCycle s) := by
  have ht := h.advanceTimer hs
  unfold Machine.coreCycle
  dsimp only
  split
  · exact h.carried.transfersLeft _ _ _ _ _ _ (h.frame ht rfl)
  split
  · exact h.takeWarn ht
  split
  · exact h.carried.takeTrap ht _
  split
  · exact h.frame ht rfl
  · exact h.fetchAndRun ht

theorem coreStep (hs : P s) : Answers P (Machine.coreStep s) := by
  unfold Machine.coreStep
  split
  · exact (h.coreCycle hs).onNext fun t ht => h.frame ht (tracked_samplePio t)
  · exact hs

/-! ### The debug host -/

theorem completeScan (hs : P s) : Answers P (Machine.completeScan s) := by
  unfold Machine.completeScan
  dsimp only
  split
  · exact h.frame hs rfl
  · split
    · next u e =>
      refine h.frame (h.writeReg ?_ e) rfl
      exact h.frame hs rfl
    · trivial

theorem settleInjected (hs : P s) {t : State} (ht : P t) (jump writes : Bool) (load : Option AbsReg)
    (kind : Option Bool) : Answers P (Machine.settleInjected jump writes load kind s t) :=
  h.frame (h.injected jump writes hs ht) rfl

theorem injectedEffect (hs : P s) (i : Instr) : Answers P (Machine.injectedEffect i s) := by
  have hf := h.forced hs
  unfold Machine.injectedEffect
  split
  · unfold injectedMfsr
    split
    · exact h.carried.guarded hf fun _ => h.carried.writeFinish (h.carried.enter hf) _ _ _
    · trivial
  · exact h.carried.exec hf i

theorem runInjected (hs : P s) : Answers P (Machine.runInjected s) := by
  unfold Machine.runInjected
  split
  · split
    · exact (h.injectedEffect hs _).thenNext fun t ht => h.settleInjected hs ht _ _ _ _
    · trivial
  · exact (h.carried.runTrapping (h.forced hs) _ _ _ _).thenNext fun t ht => h.settleInjected hs ht _ _ _ _
  · trivial

theorem debugStep (hs : P s) : Answers P (Machine.debugStep s) := by
  have sampled (t : State) (ht : P t) : P (samplePio t) := h.frame ht (tracked_samplePio t)
  unfold Machine.debugStep
  split_ifs
  · exact (h.coreCycle hs).onNext sampled
  · exact ((h.completeScan (h.advanceTimer hs)).thenNext fun t ht => h.runInjected ht).onNext sampled
  · exact (h.coreCycle hs).onNext fun t ht => h.frame (sampled t ht) rfl

theorem cntlEffect (hs : P s) (old v : BitVec 2) : Answers P (Machine.cntlEffect old v s) := by
  have forceStatus : P (forceStatus s) := by
    unfold Machine.forceStatus
    split
    · exact hs
    · exact h.frame (h.floatPcs hs) rfl
  unfold Machine.cntlEffect
  dsimp only
  split_ifs
  · exact h.frame forceStatus rfl
  · trivial
  · exact h.frame hs rfl
  · exact h.frame hs rfl
  · exact (h.completeScan hs).onNext fun t ht => h.frame ht rfl
  · refine h.debugStep ?_
    exact h.frame hs rfl
  · exact h.frame hs rfl

theorem cntlChange (hs : P s) (v : BitVec 2) : Answers P (Machine.cntlChange v s) := by
  unfold Machine.cntlChange
  split_ifs
  · exact hs
  · trivial
  · exact h.cntlEffect hs _ _

theorem cntlChanges (l : List (BitVec 2)) (hs : P s) : Answers P (Machine.cntlChanges l s) := by
  induction l generalizing s with
  | nil => exact hs
  | cons v r ih =>
    unfold Machine.cntlChanges
    split
    · exact h.frame hs rfl
    · exact (h.cntlChange hs v).thenNext fun t ht => ih ht

theorem cntlMove (hs : P s) (v : BitVec 2) : Answers P (Machine.cntlMove v s) := by
  unfold Machine.cntlMove
  split_ifs
  · exact h.frame hs (tracked_deferCntl v s)
  · exact h.cntlChange hs v
  · exact h.frame hs (tracked_queueCntl v s)
  · exact hs

theorem applyPending (hs : P s) : Answers P (Machine.applyPending s) := by
  unfold Machine.applyPending
  split
  · exact hs
  · refine h.cntlChanges _ ?_
    exact h.frame hs rfl

/-! ### The schedule -/

theorem coreTurn (hs : P s) : Answers P (Machine.coreTurn s) :=
  (h.coreStep hs).thenNext fun _ ht => h.applyPending ht

theorem warnTurn (hs : P s) : Answers P (Machine.warnTurn s) := by
  unfold Machine.warnTurn
  split
  · refine Answers.onNext (h.coreTurn ?_) fun t ht => h.frame ht rfl
    exact h.frame hs rfl
  · exact h.coreTurn hs

theorem runEvent (hs : P s) (e : Event) : Answers P (Machine.runEvent e s) := by
  cases e with
  | core => exact h.coreTurn hs
  | warn => exact h.warnTurn hs
  | agent m | mid m => exact h.runMove hs fun _ => h.advanceTimer hs
  | gap => exact hs
  | reset | midReset => exact h.resetPin hs
  | cntl v | midCntl v => exact (h.cntlMove hs v).thenNext fun _ ht => h.applyPending ht

/-- Every step keeps P. -/
theorem step (hs : P s) : Answers P (Machine.step s) := by
  unfold Machine.step
  split
  · split
    · exact h.dmaMove hs
    · exact h.coreTurn hs
  · split
    · exact h.dmaMove hs
    · exact h.runEvent (h.setSchedule _ hs) _

end Stepwise

end Sys2Proof.Machine
end

section
/-! PROOFS. The two invariants of a step about the core: the program counters are multiples of 4 and the reserved bits of the
special registers are 0. Both, and what else reset sets, hold after reset. -/

namespace Sys2Proof.Machine

namespace AlignedPcs

variable {s : State}

theorem finishTo (h : AlignedPcs s) {next : Word} (hn : bits next 0 2 = 0) : AlignedPcs (Machine.finishTo next s) :=
  ⟨h.npc, hn, h.pc, h.pc0, h.pc1, h.pc2⟩

theorem sprWrite (h : AlignedPcs s) (n : SprNum) (v : Word) : AlignedPcs (Machine.sprWrite n v s) := by
  unfold Machine.sprWrite
  split
  case h_3 =>
    exact { h with
      pc0 := low_ite (low_wordAligned _) h.pc0
      pc1 := low_ite (low_wordAligned _) h.pc1
      pc2 := low_ite (low_wordAligned _) h.pc2 }
  case h_11 => exact { h with pc0 := low_wordAligned v }
  case h_12 => exact { h with pc1 := low_wordAligned v }
  case h_13 => exact { h with pc2 := low_wordAligned v }
  all_goals exact { h with }

theorem stepwise : Stepwise AlignedPcs where
  frame {s t} h e := by
    obtain ⟨h1, h2, h3, -, -, -, -, -, -, -, h4, h5, h6, -⟩ := Tracked.mk.inj e
    exact ⟨h1 ▸ h.pc, h2 ▸ h.npc, h3 ▸ h.prevPc, h4 ▸ h.pc0, h5 ▸ h.pc1, h6 ▸ h.pc2⟩
  store _ _ h := { h with }
  handler a h := { h with pc := low_wordAligned a, npc := low_add_four (low_wordAligned a) }
  savePcs h := { h with pc0 := low_ite h.pc0 h.npc, pc1 := low_ite h.pc1 h.pc, pc2 := low_ite h.pc2 h.prevPc }
  openSaved h := { h with pc0 := low_wordAligned _, pc1 := low_wordAligned _, pc2 := low_wordAligned _ }
  floatPcs h := { h with
    pc0 := low_ite h.pc0 (low_wordAligned _)
    pc1 := low_ite h.pc1 (low_wordAligned _)
    pc2 := low_ite h.pc2 (low_wordAligned _) }
  finish h := h.finishTo (low_add_four h.npc)
  branch abs disp h := h.finishTo (low_jumpTarget h.pc abs disp)
  jump a h := h.finishTo (low_wordAligned a)
  setAlu h _ := { h with }
  setChc h _ := { h with }
  setPointers _ h := { h with }
  sprWrite n v h := h.sprWrite n v
  restoreContext h := { h with pc := low_wordAligned _, npc := low_wordAligned _, prevPc := h.pc }
  setSchedule _ h := { h with }
  advanceTimer h := { h with }
  resetPin _ := ⟨low_wordAligned 0, low_wordAligned 4, low_wordAligned 0, low_wordAligned _, low_wordAligned _,
    low_wordAligned _⟩
  forced h := { h with }
  injected jump writes hs ht := by
    cases jump with
    | true => exact { ht with pc := ht.npc, npc := low_add_four ht.npc, prevPc := hs.prevPc }
    | false => exact { ht with pc := hs.pc, npc := hs.npc, prevPc := hs.prevPc }

end AlignedPcs

/-- Settles O57: each basic update of a step keeps the program counters multiples of 4. -/
theorem stepKeepsPcsAligned : Obligations.StepKeepsPcsAligned :=
  fun _ _ hs e => (AlignedPcs.stepwise.step hs).of_next e

/-! ### Reserved bits (10 R32-R48) -/

/-- The two timer registers have no bits outside TMC and TMR. -/
def TimerWithin (p : Word × Word) : Prop := Within 0x00FFFFFF p.1 ∧ Within 0x07FFFFFF p.2

theorem TimerWithin.tick {p : Word × Word} (h : TimerWithin p) : TimerWithin (timerTick p.1 p.2) := by
  obtain ⟨-, hr⟩ := h
  unfold timerTick
  dsimp only
  split
  · exact ⟨within_zext24 _, within_putBit (within_ite (within_putBit hr _ (by decide) rfl) hr) _ (by decide) rfl⟩
  · exact ⟨within_zext24 _, hr⟩

theorem TimerWithin.ticks (n : Nat) {p : Word × Word} (h : TimerWithin p) : TimerWithin (timerTicks n p) := by
  induction n generalizing p with
  | zero => exact h
  | succ n ih => exact ih h.tick

namespace ReservedZero

variable {s : State}

theorem finishTo (h : ReservedZero s) (next : Word) : ReservedZero (Machine.finishTo next s) :=
  { h with cps := within_traceCopy h.cps }

theorem sprWrite (h : ReservedZero s) (n : SprNum) (v : Word) : ReservedZero (Machine.sprWrite n v s) := by
  unfold Machine.sprWrite
  split
  case h_1 => exact { h with vab := within_and 0xFFFFFC00 v }
  case h_2 => exact { h with ops := within_and opsMask v }
  case h_3 => exact { h with cps := within_and cpsMask v }
  case h_7 => exact { h with chc := within_and chcMask v }
  case h_8 => exact { h with rbp := within_and 0xFFFF v }
  case h_9 => exact { h with tmc := within_and 0x00FFFFFF v }
  case h_10 => exact { h with tmr := within_and 0x07FFFFFF v }
  case h_14 => exact { h with ipc := within_pointerWord _ }
  case h_15 => exact { h with ipa := within_pointerWord _ }
  case h_16 => exact { h with ipb := within_pointerWord _ }
  case h_18 => exact { h with alu := within_and aluMask v }
  case h_19 => exact { h with alu := within_putBits h.alu 5 _ (by decide) (by decide) }
  case h_20 => exact { h with alu := within_putBits h.alu 0 _ (by decide) (by decide) }
  case h_21 => exact { h with chc := within_putBits h.chc 16 _ (by decide) (by decide) }
  all_goals exact { h with }

theorem stepwise : Stepwise ReservedZero where
  frame h e := by
    obtain ⟨-, -, -, h1, h2, h3, h4, h5, h6, h7, -, -, -, h8, h9, h10, h11, -⟩ := Tracked.mk.inj e
    exact ⟨h1 ▸ h.vab, h2 ▸ h.ops, h3 ▸ h.cps, h4 ▸ h.chc, h5 ▸ h.rbp, h6 ▸ h.tmc, h7 ▸ h.tmr, h8 ▸ h.ipa, h9 ▸ h.ipb,
      h10 ▸ h.ipc, h11 ▸ h.alu⟩
  store _ _ h := { h with }
  handler _ h := { h with ops := within_cpsValue h.cps, cps := within_trapCps h.cps }
  savePcs h := { h with }
  openSaved h := { h with chc := within_and chcMask _ }
  floatPcs h := { h with }
  finish h := h.finishTo _
  branch _ _ h := h.finishTo _
  jump _ h := h.finishTo _
  setAlu h ha := { h with alu := ha h.alu }
  setChc h hc := { h with chc := hc h.chc }
  setPointers _ h := { h with ipa := within_pointerWord _, ipb := within_pointerWord _, ipc := within_pointerWord _ }
  sprWrite n v h := h.sprWrite n v
  restoreContext h := { h with cps := within_and cpsMask _ }
  setSchedule _ h := { h with }
  advanceTimer {s} h := by
    obtain ⟨hc, hr⟩ := TimerWithin.ticks (Config.extraCycles s.free + 1) (p := (s.tmc, s.tmr)) ⟨h.tmc, h.tmr⟩
    exact { h with tmc := hc, tmr := hr }
  resetPin _ :=
    { vab := within_and 0xFFFFFC00 _, ops := within_and opsMask _, cps := (rfl : Within cpsMask 0x413)
      chc := within_mono (within_and 0xFFFFE3FE _) (rfl : Within chcMask 0xFFFFE3FE), rbp := within_and 0xFFFF _
      tmc := within_and 0x00FFFFFF _, tmr := within_and 0x07FFFFFF _, ipa := within_and 0x3FC _
      ipb := within_and 0x3FC _, ipc := within_and 0x3FC _, alu := within_and aluMask _ }
  forced h := { h with cps := within_or h.cps rfl }
  injected jump writes hs ht := by
    cases jump <;> exact { ht with cps := within_ite ht.cps hs.cps }

end ReservedZero

/-- Settles O58: each basic update of a step keeps the reserved bits 0. -/
theorem stepKeepsReservedZero : Obligations.StepKeepsReservedZero :=
  fun _ _ hs e => (ReservedZero.stepwise.step hs).of_next e

/-! ### Reset -/

/-- Settles O59. -/
theorem resetMeetsInvariants : Obligations.ResetMeetsInvariants :=
  ⟨rfl, by constructor <;> rfl, by constructor <;> rfl⟩

/-- Settles O55. -/
theorem resetSetsTheCore : Obligations.ResetSetsTheCore := by
  refine ⟨rfl, rfl, rfl, rfl, rfl, rfl, rfl, rfl, rfl, rfl, ?_⟩
  decide

end Sys2Proof.Machine
end

section
/-! PROOFS. User mode: an instruction leaves the registers of control alone, and leads to Supervisor mode by a trap only. -/

namespace Sys2Proof.Machine

/-- Inside an instruction that began at s in User mode: still in User mode, VAB, RBP and the timer as at s, and neither a
RESET nor a tick of the timer is scheduled to fall between the transfers of a multiple. -/
structure UserSince (s t : State) : Prop where
  user : t.sm = false
  control : SameControl s t
  quiet : ∀ e ∈ t.schedule, e ≠ .midReset ∧ e ≠ .mid .tick

/-- At the end of an instruction that began at s in User mode: VAB, RBP and the timer as at s, and Supervisor mode only in
the handler of a trap. -/
structure LeftUser (s t : State) : Prop where
  control : SameControl s t
  trapped : t.sm = true → t.da = true ∧ t.fz = true ∧ bit t.ops 4 = false

namespace UserSince

variable {s t : State}

theorem finishTo (h : UserSince s t) (next : Word) : UserSince s (Machine.finishTo next t) :=
  { h with
    user := (bit_traceCopy_ne _ _ (by decide)).trans h.user
    control := { h.control with } }

/-- What a handler finds saved is no register of control. -/
theorem saveContext (h : UserSince s t) : UserSince s (Machine.saveContext t) := by
  unfold Machine.saveContext
  split <;> exact { h with control := { h.control with } }

/-- A trap enters Supervisor mode with DA = FZ = 1 and the old status in OPS (60 R471). -/
theorem trap (h : UserSince s t) (a : Word) : LeftUser s (enterHandler a (saveStatus (Machine.saveContext t))) where
  control := { h.saveContext.control with }
  trapped _ := by
    have ops : bit (cpsValue (Machine.saveContext t)) 4 = false :=
      (bit_putBit_ne _ 14 4 _ (by decide) (by decide)).trans h.saveContext.user
    refine ⟨?_, ?_, ops⟩ <;> simp [State.da, State.fz, bit, trapCps]

/-- In User mode only the unprotected special registers, 128 and up, are written (10 R31). -/
theorem sprWrite (h : UserSince s t) {n : SprNum} (hn : sprViolation t n = false) (v : Word) :
    UserSince s (Machine.sprWrite n v t) := by
  have h128 : 128 ≤ n.toNat := by
    simp only [sprViolation, h.user, Bool.or_eq_false_iff, Bool.not_false, Bool.true_and, decide_eq_false_iff_not] at hn
    omega
  unfold Machine.sprWrite
  split
  case h_1 | h_3 | h_8 | h_9 | h_10 => omega
  all_goals exact { h with control := { h.control with } }

theorem carried (s : State) : Carried (UserSince s) (LeftUser s) where
  frame h e := by
    obtain ⟨-, -, -, h1, -, h2, -, h3, h4, h5, -, -, -, -, -, -, -, -, h6⟩ := Tracked.mk.inj e
    exact
      { user := by simpa only [State.sm, h2] using h.user
        control := ⟨h1.trans h.control.vab, h3.trans h.control.rbp, h4.trans h.control.tmc, h5.trans h.control.tmr⟩
        quiet := h6 ▸ h.quiet }
  store _ _ h := { h with control := { h.control with } }
  ends h := ⟨h.control, fun hm => absurd hm (by simp [h.user])⟩
  trap a h := h.trap a
  finish h := h.finishTo _
  branch _ _ h := h.finishTo _
  jump _ h := h.finishTo _
  setAlu h _ := { h with control := { h.control with } }
  setChc h _ := { h with control := { h.control with } }
  setPointers _ h := { h with control := { h.control with } }
  sprWrite v h hn := h.sprWrite hn v
  restore h hm := absurd hm (by simp [h.user])
  dropEvent h e :=
    { h with
      control := { h.control with }
      quiet := fun x hx => h.quiet x (e ▸ List.mem_cons_of_mem _ hx) }
  midTick h e := absurd rfl (h.quiet (.mid .tick) (by simp [e])).2
  midReset h e := absurd rfl (h.quiet .midReset (by simp [e])).1

end UserSince

/-- Settles O60: in User mode every update of an instruction leaves the registers of control alone until it ends or traps. -/
theorem userModeKeepsControl : Obligations.UserModeKeepsControl := by
  intro i s t hu hq e
  have start : UserSince s s := ⟨hu, ⟨rfl, rfl, rfl, rfl⟩, hq⟩
  have left : LeftUser s t := ((UserSince.carried s).exec start i).of_next e
  exact ⟨left.control, left.trapped⟩

end Sys2Proof.Machine
end

section
/-! PROOFS. Absolute register numbers, and the checks an instruction makes before it acts: protected registers, special
registers the mode may not name, and the forms the RRM instructions stop on. -/

namespace Sys2Proof.Machine

/-! ### Absolute numbers (10 R22-R24) -/

theorem toNat_absOfLocal (sp : Word) (f : RegNum) :
    (absOfLocal sp f).toNat = 128 + (f.toNat % 128 + sp.toNat / 4 % 128) % 128 := by
  have top : ∀ z : BitVec 8, (0x80#8 ||| (z &&& 0x7F#8)).toNat = 128 + z.toNat % 128 := by decide
  have low : ((bits sp 2 7).setWidth 8 : BitVec 8).toNat = sp.toNat / 4 % 128 := by
    simp [bits, Nat.shiftRight_eq_div_pow]
    omega
  rw [absOfLocal, top, BitVec.toNat_add, low]
  omega

theorem shadowOf_settled {s : State} (hr : s.recent.sp = none) (p : Pos) :
    shadowOf p s = if s.shadow.valid then some s.shadow.val else none := by simp [shadowOf, hr]

theorem resolve_local {p : Pos} {f : RegNum} {s : State} (hf : 128 ≤ f.toNat) :
    resolve p f s = (shadowOf p s).map fun sp => absOfLocal sp f := by
  have h0 : f ≠ 0 := by rintro rfl; cases hf
  rw [resolve, if_neg h0, if_neg (by omega)]

/-- Settles O4. -/
theorem localRegisterNumber : Obligations.LocalRegisterNumber := by
  intro p f s hf hr hv
  refine ⟨absOfLocal s.shadow.val f, ?_, toNat_absOfLocal _ _⟩
  rw [resolve_local hf, shadowOf_settled hr, hv]
  rfl

/-- Settles O5. -/
theorem globalRegisterNumber : Obligations.GlobalRegisterNumber := by
  intro p f s hf hp
  by_cases h0 : f = 0
  · refine ⟨bits (p.pointer s) 2 8, by simp [resolve, pointerOf, h0, hp h0], ?_⟩
    rw [if_pos h0]
    simp [bits, Nat.shiftRight_eq_div_pow]
  · exact ⟨f, by rw [resolve, if_neg h0, if_pos hf], by rw [if_neg h0]⟩

/-! ### The Protection Violation (60 R460, R476) -/

/-- A Protection Violation that can be taken: the trap and nothing else. -/
theorem protectionViolation_taken {s : State} (h : CanTrap 5 s) :
    ∃ t, trapCurr vProtection s = .next t ∧ TrapsBefore 5 s t ∧ SameRegisters s t ∧ SameStatus s t ∧
      SamePointers s t ∧ TrapUndisturbed s t := by
  obtain ⟨e, he⟩ := Option.isSome_iff_exists.mp h.vector
  refine ⟨_, (trapCurr_enabled h).trans (takeTrap_some he h.settled), trapped_of_entry he, ?_, ⟨rfl, rfl⟩,
    ⟨rfl, rfl, rfl⟩, ⟨fun _ => rfl, ⟨rfl, rfl, rfl⟩, ⟨rfl, rfl, rfl, rfl⟩, ?_⟩⟩
  · exact sameRegisters_of_files rfl rfl rfl rfl
  · constructor <;> simp

/-- Settles O36: the special register number is checked first. -/
theorem specialRegisterPrivilege : Obligations.SpecialRegisterPrivilege := by
  intro sa s hn hc i hi
  have hv : sprViolation s sa = true := by
    simp only [mayAccess, not_and_or, not_lt, not_or, not_le, Bool.not_eq_true] at hn
    simpa [sprViolation] using hn
  have e : exec i s = trapCurr vProtection s := by
    rcases hi with ⟨rc, rfl⟩ | ⟨rb, rfl⟩ | ⟨imm, rfl⟩ <;> dsimp only [exec]
    · rw [execMfsr, hv, guarded_closed]
    · rw [execMtsr, hv, guarded_closed]
    · rw [execMtsrim, hv, guarded_closed]
  rw [e]
  exact protectionViolation_taken hc

/-! ### Protected registers (10 R27) -/

/-- Every field names a register. -/
def Resolved (l : List (Pos × RegNum)) (s : State) : Prop := ∀ f ∈ l, ∃ n, resolve f.1 f.2 s = some n

/-- Some field names a protected register. -/
def anyProtected (l : List (Pos × RegNum)) (s : State) : Bool := l.any fun f => badReg f.1 f.2 s

theorem resolved_cons {f : Pos × RegNum} {l : List (Pos × RegNum)} {s : State} :
    Resolved (f :: l) s ↔ (∃ n, resolve f.1 f.2 s = some n) ∧ Resolved l s := List.forall_mem_cons

theorem resolved_append {l m : List (Pos × RegNum)} {s : State} :
    Resolved (l ++ m) s ↔ Resolved l s ∧ Resolved m s := List.forall_mem_append

theorem anyProtected_cons (f : Pos × RegNum) (l : List (Pos × RegNum)) (s : State) :
    anyProtected (f :: l) s = (badReg f.1 f.2 s || anyProtected l s) := rfl

theorem badReg_of_resolve {p : Pos} {f : RegNum} {s : State} {n : AbsReg} (h : resolve p f s = some n) :
    badReg p f s = isProtected s n := by rw [badReg, h, Option.any_some]

theorem anyProtected_of_names {l : List (Pos × RegNum)} {s : State} (hu : s.sm = false) (h : NamesProtected l s) :
    anyProtected l s = true := by
  obtain ⟨f, hf, n, hn, h2, hb⟩ := h
  exact List.any_eq_true.mpr ⟨f, hf, by rw [badReg_of_resolve hn, isProtected, hu, decide_eq_true h2]; exact hb⟩

/-- A violation inside the checks is the violation. -/
theorem guarded_violation (v : Bool) (s : State) : guarded v s (trapCurr vProtection s) = trapCurr vProtection s := by
  cases v <;> rfl

section

variable {s : State} {rc ra rb : RegNum} {b : SrcB}

/-- "RB or I" resolves where its field does, and is protected where its field is. -/
theorem resolveSrc_of_resolved (h : Resolved (sourceField b) s) :
    ∃ v, resolveSrc b s = some v ∧ v.isProtected s = anyProtected (sourceField b) s := by
  cases b with
  | imm i => exact ⟨_, rfl, rfl⟩
  | reg f =>
    obtain ⟨⟨n, hn⟩, -⟩ := resolved_cons.mp h
    exact ⟨.reg n, by simp [resolveSrc, hn], by
      simp only [sourceField, anyProtected_cons, badReg_of_resolve hn]
      exact (Bool.or_false _).symm⟩

theorem withRRM_protected (hr : Resolved ((.C, rc) :: (.A, ra) :: sourceField b) s)
    (hp : anyProtected ((.C, rc) :: (.A, ra) :: sourceField b) s = true)
    (k : AbsReg → Word → Word → State → Result) : withRRM rc ra b s k = trapCurr vProtection s := by
  obtain ⟨⟨c, hc⟩, hr⟩ := resolved_cons.mp hr
  obtain ⟨⟨a, ha⟩, hr⟩ := resolved_cons.mp hr
  obtain ⟨v, hv, ho⟩ := resolveSrc_of_resolved hr
  rw [anyProtected_cons, anyProtected_cons, badReg_of_resolve hc, badReg_of_resolve ha, ← ho, ← Bool.or_assoc] at hp
  simp only [withRRM, operandsRRM, hc, ha, hv, Operands3.isProtected, hp, guarded_closed]

/-! Families of the RRM format. -/

section

variable (hr : Resolved ((.C, rc) :: (.A, ra) :: sourceField b) s)
  (hp : anyProtected ((.C, rc) :: (.A, ra) :: sourceField b) s = true)
include hr hp

theorem runAdd_protected (chk : RangeCheck) (f : Word → Word → State → AddResult) :
    runAdd chk f rc ra b s = trapCurr vProtection s := withRRM_protected hr hp _

theorem runMulStep_protected (f : Word → Word → AddResult) (g : AddResult → Bool) :
    runMulStep f g rc ra b s = trapCurr vProtection s := withRRM_protected hr hp _

theorem runDivStep_protected (shift : Bool) : runDivStep shift rc ra b s = trapCurr vProtection s :=
  withRRM_protected hr hp _

theorem runCompare_protected (rel : Word → Word → Bool) : runCompare rel rc ra b s = trapCurr vProtection s :=
  withRRM_protected hr hp _

theorem runLogical_protected (f : Word → Word → Word) : runLogical f rc ra b s = trapCurr vProtection s :=
  withRRM_protected hr hp _

theorem runPlain_protected (f : Word → Word → State → Word) : runPlain f rc ra b s = trapCurr vProtection s :=
  withRRM_protected hr hp _

end

/-- The operands of the formats with RA and "RB or I". -/
theorem operandsAB_protected (hr : Resolved ((.A, ra) :: sourceField b) s)
    (hp : anyProtected ((.A, ra) :: sourceField b) s = true) :
    ∃ o, operandsAB ra b s = some o ∧ o.isProtected s = true := by
  obtain ⟨⟨a, ha⟩, hr⟩ := resolved_cons.mp hr
  obtain ⟨v, hv, ho⟩ := resolveSrc_of_resolved hr
  rw [anyProtected_cons, badReg_of_resolve ha, ← ho] at hp
  exact ⟨⟨a, v⟩, by simp only [operandsAB, ha, hv], hp⟩

/-! Asserts and accesses. -/

section

variable (hr : Resolved ((.A, ra) :: sourceField b) s) (hp : anyProtected ((.A, ra) :: sourceField b) s = true)
include hr hp

theorem runAssert_protected (rel : Word → Word → Bool) (vn : VecNum) :
    runAssert rel vn ra b s = trapCurr vProtection s := by
  obtain ⟨o, ho, hv⟩ := operandsAB_protected hr hp
  simp only [runAssert, withAB, ho, hv, guarded_closed]

theorem withAccess_protected (cntl : BitVec 8) (k : AbsReg → Word → State → Result) :
    withAccess cntl ra b s k = trapCurr vProtection s := by
  obtain ⟨o, ho, hv⟩ := operandsAB_protected hr hp
  simp only [withAccess, ho, hv, guarded_closed]

theorem runLoad_protected (cntl : BitVec 8) : runLoad cntl ra b s = trapCurr vProtection s :=
  withAccess_protected hr hp _ _

theorem runLoadSet_protected (cntl : BitVec 8) : runLoadSet cntl ra b s = trapCurr vProtection s :=
  withAccess_protected hr hp _ _

theorem runStore_protected (cntl : BitVec 8) : runStore cntl ra b s = trapCurr vProtection s :=
  withAccess_protected hr hp _ _

theorem runMultiple_protected (load : Bool) (cntl : BitVec 8) :
    runMultiple load cntl ra b s = trapCurr vProtection s := by
  obtain ⟨o, ho, hv⟩ := operandsAB_protected hr hp
  simp only [runMultiple, ho, hv, guarded_closed]

end

theorem withRM_protected (hr : Resolved ((.C, rc) :: sourceField b) s)
    (hp : anyProtected ((.C, rc) :: sourceField b) s = true) (k : AbsReg → Word → State → Result) :
    withRM rc b s k = trapCurr vProtection s := by
  obtain ⟨⟨c, hc⟩, hr⟩ := resolved_cons.mp hr
  obtain ⟨v, hv, ho⟩ := resolveSrc_of_resolved hr
  rw [anyProtected_cons, badReg_of_resolve hc, ← ho] at hp
  simp only [withRM, hc, hv, hp, guarded_closed]

/-- Three register numbers, of which the control byte of CONVERT, SQRT and CLASS may be the last (D14). -/
theorem resolveNumbers_protected (hr : Resolved [(.C, rc), (.A, ra), (.B, rb)] s)
    (hp : anyProtected [(.C, rc), (.A, ra), (.B, rb)] s = true) :
    ∃ n, resolveNumbers rc ra rb s = some n ∧ n.isProtected s = true := by
  obtain ⟨⟨c, hc⟩, hr⟩ := resolved_cons.mp hr
  obtain ⟨⟨a, ha⟩, hr⟩ := resolved_cons.mp hr
  obtain ⟨⟨n, hn⟩, -⟩ := resolved_cons.mp hr
  refine ⟨⟨c, a, n⟩, by simp only [resolveNumbers, hc, ha, hn], ?_⟩
  simpa [anyProtected, badReg_of_resolve hc, badReg_of_resolve ha, badReg_of_resolve hn, Numbers.isProtected,
    or_assoc] using hp

theorem runTrapping_protected (hr : Resolved [(.C, rc), (.A, ra), (.B, rb)] s)
    (hp : anyProtected [(.C, rc), (.A, ra), (.B, rb)] s = true) (op : BitVec 8) :
    runTrapping op rc ra rb s = trapCurr vProtection s := by
  obtain ⟨n, hn, hv⟩ := resolveNumbers_protected hr hp
  simp only [runTrapping, hn, hv, guarded_closed]

theorem execSetip_protected (hr : Resolved [(.C, rc), (.A, ra), (.B, rb)] s)
    (hp : anyProtected [(.C, rc), (.A, ra), (.B, rb)] s = true) :
    execSetip rc ra rb s = trapCurr vProtection s := by
  obtain ⟨n, hn, hv⟩ := resolveNumbers_protected hr hp
  simp only [execSetip, hn, hv, guarded_closed]

/-- A single field. -/
theorem resolve_protected {p : Pos} {f : RegNum} (hr : Resolved [(p, f)] s) (hp : anyProtected [(p, f)] s = true) :
    ∃ n, resolve p f s = some n ∧ isProtected s n = true := by
  obtain ⟨⟨n, hn⟩, -⟩ := resolved_cons.mp hr
  exact ⟨n, hn, by simpa [anyProtected, badReg_of_resolve hn] using hp⟩

/-- Two fields. -/
theorem resolve_pair_protected {p q : Pos} {f g : RegNum} (hr : Resolved [(p, f), (q, g)] s)
    (hp : anyProtected [(p, f), (q, g)] s = true) :
    ∃ n m, resolve p f s = some n ∧ resolve q g s = some m ∧ (isProtected s n || isProtected s m) = true := by
  obtain ⟨⟨n, hn⟩, hr⟩ := resolved_cons.mp hr
  obtain ⟨⟨m, hm⟩, -⟩ := resolved_cons.mp hr
  exact ⟨n, m, hn, hm, by simpa [anyProtected, badReg_of_resolve hn, badReg_of_resolve hm] using hp⟩

end

/-- An instruction that names a protected register is a Protection Violation. -/
theorem exec_protected {i : Instr} {s : State} (hr : Resolved (registerFields i) s) (hc : Resolved (controlField i) s)
    (hp : anyProtected (registerFields i) s = true) : exec i s = trapCurr vProtection s := by
  cases i <;> dsimp only [exec]
  case constn | consth | const | jmpt | jmpf | jmpfdec | call =>
    obtain ⟨n, hn, hv⟩ := resolve_protected hr hp
    simp only [execConstn, execConsth, execConst, runConst, execJmpt, execJmpf, runJumpIf, execJmpfdec, execCall, hn,
      hv, guarded_closed]
  case jmpi | mtsr | mfsr =>
    obtain ⟨n, hn, hv⟩ := resolve_protected hr hp
    simp only [execJmpi, execMtsr, execMfsr, hn, hv, guarded_closed, guarded_violation]
  case exhws | jmpti | jmpfi | calli =>
    obtain ⟨n, m, hn, hm, hv⟩ := resolve_pair_protected hr hp
    simp only [execExhws, execJmpti, execJmpfi, runJumpIfReg, execCalli, hn, hm, hv, guarded_closed]
  case emulate =>
    obtain ⟨n, m, hn, hm, hv⟩ := resolve_pair_protected hr hp
    simp only [execEmulate, hn, hm, hv, Bool.true_or, guarded_closed]
  case load | loadl => exact runLoad_protected hr hp _
  case loadset => exact runLoadSet_protected hr hp _
  case store | storel => exact runStore_protected hr hp _
  case loadm | storem => exact runMultiple_protected hr hp _ _
  case clz | div0 => exact withRM_protected hr hp _
  case aseq | asneq | aslt | asltu | asle | asleu | asgt | asgtu | asge | asgeu => exact runAssert_protected hr hp _ _
  case setip => exact execSetip_protected hr hp
  case convert | sqrt | cls =>
    exact runTrapping_protected (resolved_append.mpr ⟨hr, hc⟩) (by
      rw [anyProtected, List.any_eq_true] at hp ⊢
      obtain ⟨f, hf, hb⟩ := hp
      exact ⟨f, List.mem_append_left _ hf, hb⟩) _
  case multm | multmu | multiply | divide | multiplu | dividu | feq | deq | fgt | dgt | fge | dge | fadd | dadd | fsub
      | dsub | fmul | dmul | fdiv | ddiv | fdmul => exact runTrapping_protected hr hp _
  case mtsrim | iret | iretinv | inv | mftlb | mttlb | halt | jmp => cases hp
  case add | adds | addu | addc | addcs | addcu | sub | subs | subu | subc | subcs | subcu | subr | subrs | subru
      | subrc | subrcs | subrcu => exact runAdd_protected hr hp _ _
  case mul | mull | mulu => exact runMulStep_protected hr hp _ _
  case div | divl => exact runDivStep_protected hr hp _
  case divrem => exact withRRM_protected hr hp _
  case cpeq | cpneq | cplt | cpltu | cple | cpleu | cpgt | cpgtu | cpge | cpgeu | cpbyte =>
    exact runCompare_protected hr hp _
  case and | andn | nand | nor | or | xnor | xor => exact runLogical_protected hr hp _
  case sll | srl | sra | extract | exbyte | exhw | inbyte | inhw => exact runPlain_protected hr hp _

/-- Settles O6: the register check of every format comes before the instruction acts. -/
theorem protectedOperandTraps : Obligations.ProtectedOperandTraps := by
  intro i s hr hu hp hc
  obtain ⟨hr, hctl⟩ := resolved_append.mp hr
  rw [exec_protected hr hctl (anyProtected_of_names hu hp)]
  exact protectionViolation_taken hc

/-! ### The stops of the RRM format (10 R25, R26, 93 U1, U3) -/

/-- With an invalid shadow Stack Pointer no local register has a number. -/
theorem resolve_local_invalid {p : Pos} {f : RegNum} {s : State} (hf : 128 ≤ f.toNat) (hr : s.recent.sp = none)
    (hv : s.shadow.valid = false) : resolve p f s = none := by
  rw [resolve_local hf, shadowOf_settled hr, hv]
  rfl

theorem resolveSrc_unresolved {b : SrcB} {s : State} (h : ∃ f ∈ sourceField b, resolve f.1 f.2 s = none) :
    resolveSrc b s = none := by
  obtain ⟨f, hf, hn⟩ := h
  cases b with
  | imm i => cases hf
  | reg r =>
    obtain rfl := List.mem_singleton.mp hf
    rw [resolveSrc, hn, Option.map_none]

/-- An instruction of the RRM format with a field that names no register is refused (93 U3). -/
theorem withRRM_unresolved {rc ra : RegNum} {b : SrcB} {s : State}
    (h : ∃ f ∈ (Pos.C, rc) :: (Pos.A, ra) :: sourceField b, resolve f.1 f.2 s = none)
    (k : AbsReg → Word → Word → State → Result) : withRRM rc ra b s k = .refused .localsUnpredictable := by
  have none : operandsRRM rc ra b s = none := by
    rw [List.exists_mem_cons_iff, List.exists_mem_cons_iff] at h
    unfold operandsRRM
    split
    next c a v hc ha hv =>
      obtain e | e | e := h
      · exact absurd (hc.symm.trans e) (by simp)
      · exact absurd (ha.symm.trans e) (by simp)
      · exact absurd (hv.symm.trans (resolveSrc_unresolved e)) (by simp)
    next => rfl
  simp only [withRRM, none]

/-- Open operands reach the instruction's own effect, whether or not the destination has storage. -/
theorem withRRM_open {rc ra : RegNum} {b : SrcB} {s : State} {c : AbsReg} {x y : Word} (hc : resolve .C rc s = some c)
    (ho : isProtected s c = false) (hx : ReadsA ra s x) (hy : ReadsB b s y)
    (k : AbsReg → Word → Word → State → Result) : withRRM rc ra b s k = k c x y s.enter := by
  obtain ⟨a, ha, hao, hx⟩ := hx
  obtain ⟨v, hv, hvo, hy⟩ := hy.resolved
  simp only [withRRM, operandsRRM, hc, ha, hv, Operands3.isProtected, ho, hao, hvo, Bool.or_self, guarded_open,
    Operands3.va, Operands3.vb, hx, hy]

theorem writeThen_no_storage {al : Bool} {c : AbsReg} (h : hasStorage c = false) (v : Word) (s : State)
    (k : State → Result) : writeThen al c v s k = .refused (.unimplementedRegisterWrite c) := by
  simp only [writeThen, writeReg_no_storage h]

/-- An instruction of the RRM format that begins its effect with the write of its destination. -/
def WritesDestination (run : RegNum → RegNum → SrcB → State → Result) : Prop :=
  ∃ k : AbsReg → Word → Word → State → Result, (∀ rc ra b s, run rc ra b s = withRRM rc ra b s k) ∧
    ∀ c x y t, hasStorage c = false → k c x y t = .refused (.unimplementedRegisterWrite c)

theorem runAdd_writes (chk : RangeCheck) (f : Word → Word → State → AddResult) : WritesDestination (runAdd chk f) :=
  ⟨_, fun _ _ _ _ => rfl, fun _ _ _ _ h => writeThen_no_storage h _ _ _⟩

theorem runMulStep_writes (f : Word → Word → AddResult) (g : AddResult → Bool) : WritesDestination (runMulStep f g) :=
  ⟨_, fun _ _ _ _ => rfl, fun _ _ _ _ h => writeThen_no_storage h _ _ _⟩

theorem runDivStep_writes (shift : Bool) : WritesDestination (runDivStep shift) :=
  ⟨_, fun _ _ _ _ => rfl, fun _ _ _ _ h => writeThen_no_storage h _ _ _⟩

theorem execDivrem_writes : WritesDestination execDivrem :=
  ⟨_, fun _ _ _ _ => rfl, fun _ _ _ _ h => writeThen_no_storage h _ _ _⟩

theorem runCompare_writes (rel : Word → Word → Bool) : WritesDestination (runCompare rel) :=
  ⟨_, fun _ _ _ _ => rfl, fun _ _ _ _ h => writeThen_no_storage h _ _ _⟩

theorem runLogical_writes (f : Word → Word → Word) : WritesDestination (runLogical f) :=
  ⟨_, fun _ _ _ _ => rfl, fun _ _ _ _ h => writeThen_no_storage h _ _ _⟩

theorem runPlain_writes (f : Word → Word → State → Word) : WritesDestination (runPlain f) :=
  ⟨_, fun _ _ _ _ => rfl, fun _ _ _ _ h => writeThen_no_storage h _ _ _⟩

/-- What the stops need to know of an instruction of the RRM format. -/
structure RegisterForm (ins : RRM) : Prop where
  writes : WritesDestination fun rc ra b s => exec (ins rc ra b) s
  fields : ∀ rc ra b, registerFields (ins rc ra b) = (.C, rc) :: (.A, ra) :: sourceField b

theorem plainSums_form : ∀ ins ∈ plainSums.map (·.1), RegisterForm ins := by
  simp only [plainSums, List.map_cons, List.map_nil, List.forall_mem_cons, List.not_mem_nil, false_imp_iff, implies_true,
    and_true]
  and_intros
  all_goals exact ⟨by dsimp only [exec]; exact runAdd_writes _ _, fun _ _ _ => rfl⟩

theorem checkedSums_form : ∀ ins ∈ checkedSums.map (·.1), RegisterForm ins := by
  simp only [checkedSums, List.map_cons, List.map_nil, List.forall_mem_cons, List.not_mem_nil, false_imp_iff, implies_true,
    and_true]
  and_intros
  all_goals exact ⟨by dsimp only [exec]; exact runAdd_writes _ _, fun _ _ _ => rfl⟩

theorem multiplySteps_form : ∀ ins ∈ multiplySteps.map (·.1), RegisterForm ins := by
  simp only [multiplySteps, List.map_cons, List.map_nil, List.forall_mem_cons, List.not_mem_nil, false_imp_iff, implies_true,
    and_true]
  and_intros
  all_goals exact ⟨by dsimp only [exec]; exact runMulStep_writes _ _, fun _ _ _ => rfl⟩

theorem compares_form : ∀ ins ∈ compares.map (·.1), RegisterForm ins := by
  simp only [compares, List.map_cons, List.map_nil, List.forall_mem_cons, List.not_mem_nil, false_imp_iff, implies_true,
    and_true]
  and_intros
  all_goals exact ⟨by dsimp only [exec]; exact runCompare_writes _, fun _ _ _ => rfl⟩

theorem logicals_form : ∀ ins ∈ logicals.map (·.1), RegisterForm ins := by
  simp only [logicals, List.map_cons, List.map_nil, List.forall_mem_cons, List.not_mem_nil, false_imp_iff, implies_true,
    and_true]
  and_intros
  all_goals exact ⟨by dsimp only [exec]; exact runLogical_writes _, fun _ _ _ => rfl⟩

theorem shifts_form : ∀ ins ∈ shifts.map (·.1), RegisterForm ins := by
  simp only [shifts, List.map_cons, List.map_nil, List.forall_mem_cons, List.not_mem_nil, false_imp_iff, implies_true,
    and_true]
  and_intros
  all_goals exact ⟨by dsimp only [exec]; exact runPlain_writes _, fun _ _ _ => rfl⟩

theorem bytePieces_form : ∀ ins ∈ bytePieces.map (·.1), RegisterForm ins := by
  simp only [bytePieces, List.map_cons, List.map_nil, List.forall_mem_cons, List.not_mem_nil, false_imp_iff, implies_true,
    and_true]
  and_intros
  all_goals exact ⟨by dsimp only [exec]; exact runPlain_writes _, fun _ _ _ => rfl⟩

theorem divideSteps_form : ∀ ins ∈ ([.div, .divl, .divrem] : List RRM), RegisterForm ins := by
  simp only [List.forall_mem_cons, List.not_mem_nil, false_imp_iff, implies_true, and_true]
  exact ⟨⟨runDivStep_writes true, fun _ _ _ => rfl⟩, ⟨runDivStep_writes false, fun _ _ _ => rfl⟩,
    ⟨execDivrem_writes, fun _ _ _ => rfl⟩⟩

theorem registerForm_of_mem : ∀ ins ∈ registerFormat, RegisterForm ins := by
  simp only [registerFormat, List.forall_mem_append, List.forall_mem_singleton]
  exact ⟨⟨⟨⟨⟨⟨⟨⟨plainSums_form, checkedSums_form⟩, multiplySteps_form⟩, divideSteps_form⟩, compares_form⟩,
    logicals_form⟩, shifts_form⟩, ⟨by dsimp only [exec]; exact runPlain_writes _, fun _ _ _ => rfl⟩⟩,
    bytePieces_form⟩

/-- Settles O7: the stops of `WritesDestination` and of an operand without a number. -/
theorem registerFormStops : Obligations.RegisterFormStops := by
  intro ins hi rc ra b s
  obtain ⟨⟨k, run, stops⟩, fields⟩ := registerForm_of_mem ins hi
  constructor
  · intro c x y hc ho hs hx hy
    exact (run rc ra b s).trans ((withRRM_open hc ho hx hy k).trans (stops c x y _ hs))
  · rintro ⟨f, hf, hl⟩ hr hv
    have unresolved := resolve_local_invalid (p := f.1) hl hr hv
    exact (run rc ra b s).trans (withRRM_unresolved ⟨f, fields rc ra b ▸ hf, unresolved⟩ k)

end Sys2Proof.Machine
end

section
/-! PROOFS. The special registers as MFSR, MTSR and MTSRIM see them. -/

namespace Sys2Proof.Machine

/-- Completion and the closing of hazard windows touch no special register of the table. -/
theorem finish_plain (s : State) : ∀ q ∈ plainSpecials, q.2.1 (finish s) = q.2.1 s := by
  simp [plainSpecials]

theorem enter_plain (s : State) : ∀ q ∈ plainSpecials, q.2.1 s.enter = q.2.1 s := by
  simp [plainSpecials]

/-! ### Reading (45 R347) -/

/-- A frozen register reads as stored once no change of FZ settles. -/
theorem frozenRead_settled {s : State} (h : s.fz = true ∧ s.fzSettle = 0) (m v : Word) : frozenRead s m v = v := by
  simp [frozenRead, State.pcsUnsettled, h.1, settling_of_zero h.2]

theorem sprRead_plain (s : State) : ∀ p ∈ plainSpecials,
    (p.1.toNat ∈ [4, 5, 6, 10, 11, 12] → s.fz = true ∧ s.fzSettle = 0) → sprRead p.1 s = p.2.1 s := by
  simp only [plainSpecials, List.forall_mem_cons, List.not_mem_nil, false_imp_iff, implies_true, and_true]
  have plain {a : Word} {f : Prop} (_ : f) : a = a := rfl
  exact ⟨plain, plain, fun h => frozenRead_settled (h (by decide)) _ _, fun h => frozenRead_settled (h (by decide)) _ _,
    fun h => frozenRead_settled (h (by decide)) _ _, plain, plain, plain,
    fun h => frozenRead_settled (h (by decide)) _ _, fun h => frozenRead_settled (h (by decide)) _ _,
    fun h => frozenRead_settled (h (by decide)) _ _, plain, plain, plain, plain, plain⟩

theorem sprViolation_of_mayAccess {s : State} {sa : SprNum} (h : mayAccess s sa) : sprViolation s sa = false := by
  obtain ⟨h160, hm⟩ := h
  simp only [sprViolation, Bool.or_eq_false_iff, decide_eq_false_iff_not, Bool.and_eq_false_iff, Bool.not_eq_false']
  exact ⟨by omega, hm.imp id (by omega)⟩

/-- MFSR with an open destination: the register takes what the special register reads as. -/
theorem exec_mfsr {rc : RegNum} {sa : SprNum} {s : State} {c : AbsReg} (hw : WritesReg .C rc s c)
    (ha : mayAccess s sa) :
    exec (.mfsr rc sa) s = .next (finish (s.enter.putReg false c (sprRead sa s.enter))) := by
  dsimp only [exec]
  rw [execMfsr, sprViolation_of_mayAccess ha, guarded_open]
  simp only [hw.number, hw.isOpen, guarded_open, writeFinish_storage hw.storage]

theorem regAt_mfsr {c : AbsReg} (h : hasStorage c = true) (v : Word) (s : State) :
    regAt (finish (s.enter.putReg false c v)) c = v :=
  (oneRegister_of_files (s := s) (t := finish (s.enter.putReg false c v)) h rfl rfl rfl rfl).value

/-- The frame of a register result. -/
theorem undisturbed_putReg (s : State) (c : AbsReg) (v : Word) :
    Undisturbed s (finish (s.enter.putReg false c v)) where
  memory _ := rfl
  saved := ⟨rfl, rfl, rfl, rfl⟩
  channel := ⟨rfl, rfl, rfl⟩
  control := ⟨rfl, rfl, rfl, rfl⟩
  pointers := ⟨rfl, rfl, rfl⟩
  devices := by constructor <;> simp

/-- Settles O31. -/
theorem moveFromSpecialResult : Obligations.MoveFromSpecialResult := by
  intro rc sa s c hw ha
  refine ⟨_, sprRead sa s.enter, exec_mfsr hw ha, oneRegister_of_files hw.storage rfl rfl rfl rfl, ?_, ?_, ?_, ?_, ?_,
    ?_, ⟨rfl, rfl⟩, advances_finish rfl rfl, undisturbed_putReg _ _ _⟩
  · rintro p hp rfl hf
    exact (sprRead_plain s.enter p hp hf).trans (enter_plain s p hp)
  · rintro rfl; rfl
  · rintro rfl; exact zext_shiftLeft_24 _
  · rintro rfl; rfl
  · rintro rfl; rfl
  · rintro rfl; rfl

/-! ### Writing (45 R348, R349) -/

/-- A move to a special register that the mode may name writes it and completes. -/
theorem exec_movesTo {i : Instr} {sa : SprNum} {v : Word} {s : State} (h : movesTo i sa v s) (ha : mayAccess s sa) :
    exec i s = .next (finish (sprWrite sa v s.enter)) := by
  obtain ⟨rb, rfl, n, hn, ho, rfl⟩ | ⟨imm, rfl, rfl⟩ := h <;> dsimp only [exec]
  · rw [execMtsr, sprViolation_of_mayAccess ha, guarded_open]
    simp only [hn, ho, guarded_open]
  · rw [execMtsrim, sprViolation_of_mayAccess ha, guarded_open]
    rfl

/-- The register of the table that holds the bits of a special register: BP and FC are windows on ALU Status, CR is one
on CHC. -/
def homeOf (n : SprNum) : SprNum := if n = 133 ∨ n = 134 then 132 else if n = 135 then 6 else n

theorem eq_ofNat_of_toNat {n : SprNum} {k : Nat} (e : n.toNat = k) : n = BitVec.ofNat 8 k := by
  rw [← e, BitVec.ofNat_toNat, BitVec.setWidth_eq]

/-- A write leaves every other special register alone, but for PC0-PC2 where CPS is written. -/
theorem sprWrite_others (n : SprNum) (v : Word) (s : State) : ∀ q ∈ plainSpecials, q.1 ≠ homeOf n →
    (10 ≤ q.1.toNat ∧ q.1.toNat ≤ 12 → n ≠ 2) → q.2.1 (sprWrite n v s) = q.2.1 s := by
  simp only [plainSpecials, List.forall_mem_cons, List.not_mem_nil, false_imp_iff, implies_true, and_true]
  unfold sprWrite
  split
  case h_22 => and_intros <;> exact fun _ _ => rfl
  case h_3 e =>
    have saved {k : SprNum} {p : Prop} (hk : 10 ≤ k.toNat ∧ k.toNat ≤ 12) (h : 10 ≤ k.toNat ∧ k.toNat ≤ 12 → n ≠ 2) :
        p := absurd (eq_ofNat_of_toNat e) (h hk)
    exact ⟨fun _ _ => rfl, fun _ _ => rfl, fun _ _ => rfl, fun _ _ => rfl, fun _ _ => rfl, fun _ _ => rfl,
      fun _ _ => rfl, fun _ _ => rfl, fun _ => saved (by decide), fun _ => saved (by decide), fun _ => saved (by decide),
      fun _ _ => rfl, fun _ _ => rfl, fun _ _ => rfl, fun _ _ => rfl, fun _ _ => rfl⟩
  all_goals
    next e =>
      obtain rfl := eq_ofNat_of_toNat e
      and_intros <;> first | exact fun _ _ => rfl | exact fun home _ => absurd rfl home

/-- What a special register of the table holds after its own write. -/
theorem sprWrite_own (v : Word) (s : State) : ∀ p ∈ plainSpecials, p.2.1 (sprWrite p.1 v s) = v &&& p.2.2 := by
  simp only [plainSpecials, List.forall_mem_cons, List.not_mem_nil, false_imp_iff, implies_true, and_true]
  have whole : v = v &&& 0xFFFFFFFF := (BitVec.and_allOnes (x := v)).symm
  exact ⟨rfl, rfl, whole, whole, rfl, rfl, rfl, rfl, rfl, rfl, rfl, pointerWord_field v, pointerWord_field v,
    pointerWord_field v, whole, rfl⟩

theorem homeOf_plain : ∀ p ∈ plainSpecials, homeOf p.1 = p.1 ∧ p.1 ≠ 2 := by
  simp only [plainSpecials, List.forall_mem_cons, List.not_mem_nil, false_imp_iff, implies_true, and_true]
  decide

/-- A move leaves every other special register of the table alone. -/
theorem moved_others (n : SprNum) (v : Word) (s : State) : ∀ q ∈ plainSpecials, q.1 ≠ homeOf n →
    (10 ≤ q.1.toNat ∧ q.1.toNat ≤ 12 → n ≠ 2) → q.2.1 (finish (sprWrite n v s.enter)) = q.2.1 s :=
  fun q hq hne h2 =>
    calc q.2.1 (finish (sprWrite n v s.enter))
      _ = q.2.1 (sprWrite n v s.enter) := finish_plain _ q hq
      _ = q.2.1 s.enter := sprWrite_others n v _ q hq hne h2
      _ = q.2.1 s := enter_plain s q hq

/-- What a move to a special register leaves outside the special registers. -/
structure MoveFrame (s t : State) : Prop where
  registers : SameRegisters s t
  memory : SameMemory s t
  devices : SameDevices s t
  pc : t.pc = s.npc
  npc : t.npc = s.npc + 4

theorem moveFrame_sprWrite (n : SprNum) (v : Word) (s : State) : MoveFrame s (finish (sprWrite n v s.enter)) := by
  have files : ∀ u : State, u.gr1 = s.gr1 → u.gr = s.gr → u.lr = s.lr → u.shadow = s.shadow → u.mem = s.mem →
      SameDevices s u → u.npc = s.npc → MoveFrame s (finish u) := fun u h1 h2 h3 h4 h5 hd hn =>
    ⟨sameRegisters_of_files h1 h2 h3 h4, fun _ => by rw [finish_mem, h5], hd.trans (sameDevices_finish u), hn,
      congrArg (· + 4) hn⟩
  have devices : SameDevices s (sprWrite n v s.enter) := by
    unfold sprWrite
    split <;> constructor <;> simp
  refine files _ ?_ ?_ ?_ ?_ ?_ devices ?_ <;> (unfold sprWrite; split <;> rfl)

theorem sprWrite_cps {n : SprNum} (h : n ≠ 2) (v : Word) (s : State) : (sprWrite n v s).cps = s.cps := by
  unfold sprWrite
  split
  case h_3 e => exact absurd (eq_ofNat_of_toNat e) h
  all_goals rfl

theorem advances_sprWrite {n : SprNum} (h : n ≠ 2) (v : Word) (s : State) :
    Advances s (finish (sprWrite n v s.enter)) :=
  have frame := moveFrame_sprWrite n v s
  ⟨frame.pc, frame.npc, congrArg traceCopy (sprWrite_cps h v s.enter)⟩

/-- The numbers 128 to 159 may be named in both modes (10 R31). -/
theorem mayAccess_unprotected (s : State) {n : SprNum} (h : 128 ≤ n.toNat ∧ n.toNat < 160) : mayAccess s n :=
  ⟨h.2, .inr h.1⟩

/-- Settles O32. -/
theorem moveToSpecialResult : Obligations.MoveToSpecialResult := by
  constructor
  · intro p hp i s v hm ha
    obtain ⟨home, ncps⟩ := homeOf_plain p hp
    have frame := moveFrame_sprWrite p.1 v s
    exact ⟨_, exec_movesTo hm ha, (finish_plain _ p hp).trans (sprWrite_own v _ p hp),
      fun q hq hne => moved_others p.1 v s q hq (home.symm ▸ hne) fun _ => ncps,
      frame.registers, frame.memory, frame.devices, advances_sprWrite ncps v s⟩
  · intro i s v hm
    have frame := moveFrame_sprWrite 135 v s
    exact ⟨_, exec_movesTo hm (mayAccess_unprotected s (by decide)), bits_putBits_same s.chc 16 _ (by decide),
      bits_putBits_outside s.chc 16 0 16 _ (by decide) (by decide) (by decide),
      bits_putBits_outside s.chc 16 24 8 _ (by decide) (by decide) (by decide),
      fun q hq hne => moved_others 135 v s q hq hne fun _ => by decide,
      frame.registers, frame.memory, frame.devices, advances_sprWrite (by decide) v s⟩

/-- CPS, CFG and the unimplemented numbers are no home of a register of the table. -/
theorem homeOf_elsewhere {sa : SprNum} (h : sa = 2 ∨ sa = 3 ∨ (13 ≤ sa.toNat ∧ sa.toNat < 128) ∨ 136 ≤ sa.toNat) :
    ∀ q ∈ plainSpecials, q.1 ≠ homeOf sa := by
  have range : ∀ q ∈ plainSpecials, q.1.toNat < 2 ∨ (4 ≤ q.1.toNat ∧ q.1.toNat < 13) ∨
      (128 ≤ q.1.toNat ∧ q.1.toNat < 133) := by
    simp only [plainSpecials, List.forall_mem_cons, List.not_mem_nil, false_imp_iff, implies_true, and_true]
    and_intros <;> decide
  have apart : sa.toNat = 2 ∨ sa.toNat = 3 ∨ (13 ≤ sa.toNat ∧ sa.toNat < 128) ∨ 136 ≤ sa.toNat :=
    h.imp (congrArg BitVec.toNat) (Or.imp_left (congrArg BitVec.toNat))
  have home : homeOf sa = sa := by
    have ne (k : SprNum) (hk : 128 ≤ k.toNat ∧ k.toNat < 136) : sa ≠ k := by
      rintro rfl
      omega
    rw [homeOf, if_neg (not_or.mpr ⟨ne 133 (by decide), ne 134 (by decide)⟩), if_neg (ne 135 (by decide))]
  intro q hq e
  have := range q hq
  rw [e, home] at this
  omega

/-- Settles O33. -/
theorem moveToStatusResult : Obligations.MoveToStatusResult := by
  intro i sa s v hm ha hsa
  have frame := moveFrame_sprWrite sa v s
  refine ⟨_, exec_movesTo hm ha, ?_, fun q hq h2 => moved_others sa v s q hq (homeOf_elsewhere hsa q hq) h2, frame.registers, frame.memory,
    frame.devices, frame.pc, frame.npc⟩
  · split
    · next e => subst e; rfl
    · next e => exact congrArg traceCopy (sprWrite_cps e v s.enter)

/-- Settles O34. -/
theorem funnelCountWindow : Obligations.FunnelCountWindow := by
  intro s
  have ha : mayAccess s 134 := mayAccess_unprotected s (by decide)
  refine ⟨ha, fun rc c hw => ⟨_, exec_mfsr hw ha, ?_⟩, fun i v hm => ?_⟩
  · exact regAt_mfsr hw.storage _ s
  · have frame := moveFrame_sprWrite 134 v s
    exact ⟨_, exec_movesTo hm ha, bits_putBits_same s.alu 0 _ (by decide),
      bits_putBits_outside s.alu 0 5 27 _ (by decide) (by decide) (by decide),
      fun q hq hne => moved_others 134 v s q hq hne fun _ => by decide,
      frame.registers, frame.memory, frame.devices, advances_sprWrite (by decide) v s⟩

/-- Settles O35. -/
theorem bytePointerWindow : Obligations.BytePointerWindow := by
  intro s
  have ha : mayAccess s 133 := mayAccess_unprotected s (by decide)
  refine ⟨ha, fun rc c hw => ⟨_, exec_mfsr hw ha, ?_⟩, fun i v hm => ?_⟩
  · exact regAt_mfsr hw.storage _ s
  · have frame := moveFrame_sprWrite 133 v s
    exact ⟨_, exec_movesTo hm ha, bits_putBits_same s.alu 5 _ (by decide),
      bits_putBits_outside s.alu 5 0 5 _ (by decide) (by decide) (by decide),
      bits_putBits_outside s.alu 5 7 25 _ (by decide) (by decide) (by decide),
      fun q hq hne => moved_others 133 v s q hq hne fun _ => by decide,
      frame.registers, frame.memory, frame.devices, advances_sprWrite (by decide) v s⟩

end Sys2Proof.Machine
end

section
/-! PROOFS. The invariant of a step about memory: its canonical form. Memory changes by stored bytes alone, and a stored byte
keeps the form. -/

namespace Sys2Proof.Machine

/-- Memory of the state is in its canonical form. -/
def MemoryCanonical (s : State) : Prop := Memory.wf s.mem = true

/-- The bytes an outstanding store replaced are put back by a store or not at all. -/
theorem Flight.wf_restore (f : Flight) (undo : Bool) {m : List Host.Cell} (h : Memory.wf m = true) :
    Memory.wf (f.restore undo m) = true := by
  unfold Flight.restore
  split
  · split
    · exact Memory.wf_putBytes h _ _
    · exact h
  · exact h

namespace MemoryCanonical

variable {s : State}

/-- A RESET abandons the access in flight and leaves memory as it is otherwise (61 R545). -/
theorem resetPin (h : MemoryCanonical s) : MemoryCanonical (Machine.resetPin s) := by
  show Memory.wf ((s.flight.map fun f => f.restore (Config.freeBool s.free) s.mem).getD s.mem) = true
  cases s.flight with
  | none => exact h
  | some f => exact f.wf_restore _ h

theorem sprWrite (h : MemoryCanonical s) (n : SprNum) (v : Word) : MemoryCanonical (Machine.sprWrite n v s) := by
  unfold Machine.sprWrite
  split <;> exact h

/-- Every other update of a step leaves memory as it is. -/
theorem stepwise : Stepwise MemoryCanonical where
  frame h e := (congrArg (fun u : Tracked => Memory.wf u.mem) e).trans h
  store k bs h := Memory.wf_putBytes h k bs
  handler _ h := h
  savePcs h := h
  openSaved h := h
  floatPcs h := h
  finish h := h
  branch _ _ h := h
  jump _ h := h
  setAlu h _ := h
  setChc h _ := h
  setPointers _ h := h
  sprWrite n v h := h.sprWrite n v
  restoreContext h := h
  setSchedule _ h := h
  advanceTimer h := h
  resetPin h := h.resetPin
  forced h := h
  injected jump _ _ ht := by cases jump <;> exact ht

end MemoryCanonical

/-- Settles O56: each basic update of a step keeps memory in its canonical form. -/
theorem stepKeepsMemoryCanonical : Obligations.StepKeepsMemoryCanonical :=
  fun _ _ hs e => (MemoryCanonical.stepwise.step hs).of_next e

end Sys2Proof.Machine
end

section
/-! PROOFS. The plain peripheral registers of the Am29200 as loads and stores see them (20 R112, R113). -/

namespace Sys2Proof.Machine

/-! ### The core during an access -/

/-- The registers, memory and the counters and status that completion advances are as before. -/
structure CoreKept (s t : State) : Prop where
  registers : SameRegisters s t
  mem : t.mem = s.mem
  npc : t.npc = s.npc
  cps : t.cps = s.cps

namespace CoreKept

variable {s t u : State}

theorem trans (h : CoreKept s t) (k : CoreKept t u) : CoreKept s u where
  registers := ⟨fun n hn => (k.registers.regs n hn).trans (h.registers.regs n hn),
    k.registers.shadow.trans h.registers.shadow⟩
  mem := k.mem.trans h.mem
  npc := k.npc.trans h.npc
  cps := k.cps.trans h.cps

theorem launch (h : CoreKept s t) (f : Option Flight) : CoreKept s (t.launch f) :=
  h.trans ⟨sameRegisters_of_files rfl rfl rfl rfl, rfl, rfl, rfl⟩

theorem sameMemory (h : CoreKept s t) : SameMemory s t := fun k => congrArg (Memory.get · k) h.mem

theorem regAt_finish (t : State) {n : AbsReg} (hn : hasStorage n = true) : regAt (finish t) n = regAt t n :=
  readReg_congr 0 0 hn rfl rfl rfl

theorem sameRegisters_finish (h : CoreKept s t) : SameRegisters s (finish t) where
  regs n hn := (regAt_finish t hn).trans (h.registers.regs n hn)
  shadow := h.registers.shadow

/-- Completion with a register result changes that register alone. -/
theorem oneRegister_finish (h : CoreKept s t) {k : Bool} {n : AbsReg} {v : Word} (hn : hasStorage n = true) :
    OneRegister k n v s (finish (t.putReg k n v)) where
  value := (regAt_finish _ hn).trans (readReg_putReg_same t k n v 0 hn)
  others m hm hne :=
    (regAt_finish _ hm).trans ((readReg_putReg_ne t k n m v 0 0 hm hne).trans (h.registers.regs m hm))
  shadow := by
    show shadowAfter k n v t = shadowAfter k n v s
    rw [shadowAfter, shadowAfter, h.registers.shadow]

end CoreKept

/-! ### The registers of the table -/

/-- The registers of `plainPeripherals` by name, in its order. -/
def plainRegs : List PReg :=
  [.rmct, .rmcf, .drct, .drcf, .drm0, .drm1, .drm2, .drm3, .pict0, .pict1, .dmad0, .dmcn0, .dmad1, .dmcn1, .pout, .poen,
    .top, .side]

/-- The address of a register by its offset in the region (20 R112). -/
def PReg.address (p : PReg) : Word :=
  0x80000000 + BitVec.ofNat 32 (((pregTable.find? fun e => e.2 == p).map (·.1)).getD 0)

/-- What a word load of a register reads. -/
def PReg.word (p : PReg) (s : State) : Word := (readPregRaw p 4 s).1

theorem plainPeripherals_eq :
    plainPeripherals = plainRegs.map fun p => (p.address, p.word, writeMask200 p) := rfl

/-- A statement about the table is one about the registers it names. -/
theorem forall_plainPeripherals {P : Word × (State → Word) × Word → Prop} :
    (∀ r ∈ plainPeripherals, P r) ↔ ∀ p ∈ plainRegs, P (p.address, p.word, writeMask200 p) := by
  rw [plainPeripherals_eq, List.forall_mem_map]

section
variable {p q : PReg} (hp : p ∈ plainRegs) (hq : q ∈ plainRegs)

/-! ### Contents -/

include hp in
/-- A read of a plain register changes nothing by itself. -/
theorem readPregRaw_plain (k : Nat) (s : State) : readPregRaw p k s = (p.word s, s) := by
  fin_cases hp <;> rfl

include hp hq in
/-- A write of a plain register is one of that register alone. -/
theorem word_writePregRaw (k : Nat) (d : Word) (s : State) :
    q.word (writePregRaw p k d s) = if q = p then stored s p d else q.word s := by
  have row : plainRegs.map (PReg.word · (writePregRaw p k d s)) =
      plainRegs.map fun q => if q = p then stored s p d else q.word s := by
    fin_cases hp <;> rfl
  exact List.map_inj_left.mp row q hq

include hq in
/-- The contents of the plain registers are part of the units outside the core. -/
theorem word_congr {s t : State} (h : SameDevices s t) : q.word t = q.word s := by
  obtain ⟨rmct, rmcf⟩ := h.rom
  obtain ⟨drct, drcf⟩ := h.dram
  obtain ⟨drm0, drm1, drm2, drm3⟩ := h.mapping
  obtain ⟨pict0, pict1⟩ := h.pia
  obtain ⟨dma0, dma1, -⟩ := h.dma
  obtain ⟨-, pout, poen⟩ := h.pio
  obtain ⟨-, -, video⟩ := h.ports
  fin_cases hq <;> simp only [PReg.word, readPregRaw, *]

/-- What follows an access of a register moves ICT and the outbox alone. -/
theorem afterAccess_eq (p : PReg) (old new : State) :
    ∃ i o, afterAccess p old new = { new with ict := i, outbox := o } := by
  unfold afterAccess latchVideo
  split <;> exact ⟨_, _, rfl⟩

include hq in
theorem word_afterAccess (p : PReg) (old new : State) : q.word (afterAccess p old new) = q.word new := by
  obtain ⟨i, o, e⟩ := afterAccess_eq p old new
  rw [e]
  fin_cases hq <;> rfl

include hp in
theorem readPreg_plain (k : Nat) (s : State) : readPreg p k s = (p.word s, afterAccess p s s) := by
  rw [readPreg, readPregRaw_plain hp]

include hp in
theorem writePreg_plain (k : Nat) (d : Word) (s : State) :
    writePreg p k d s = afterAccess p s (writePregRaw p k d s) := by
  have : p ≠ .poct := by rintro rfl; revert hp; decide
  rw [writePreg, if_neg this]

include hp hq in
theorem word_writePreg (k : Nat) (d : Word) (s : State) :
    q.word (writePreg p k d s) = if q = p then stored s p d else q.word s := by
  rw [writePreg_plain hp, word_afterAccess hq, word_writePregRaw hp hq]

theorem coreKept_afterAccess (p : PReg) (old new : State) : CoreKept new (afterAccess p old new) := by
  obtain ⟨i, o, e⟩ := afterAccess_eq p old new
  rw [e]
  exact ⟨sameRegisters_of_files rfl rfl rfl rfl, rfl, rfl, rfl⟩

include hp in
theorem coreKept_writePreg (k : Nat) (d : Word) (s : State) : CoreKept s (writePreg p k d s) := by
  have raw : CoreKept s (writePregRaw p k d s) := by
    fin_cases hp <;> exact ⟨sameRegisters_of_files rfl rfl rfl rfl, rfl, rfl, rfl⟩
  rw [writePreg_plain hp]
  exact raw.trans (coreKept_afterAccess p s _)

/-! ### Accesses -/

theorem region_address : ∀ p ∈ plainRegs, region .am29200 p.address = .periph := by decide

theorem pregOf_address : ∀ p ∈ plainRegs, pregOf .am29200 p.address = some p := by decide

theorem aligned_address : ∀ p ∈ plainRegs, unaligned 0 p.address = false := by decide

variable {s : State} (hv : s.variant = .am29200)

include hp hv in
theorem locate_plain : locate s p.address = .periph := by
  rw [locate, hv, region_address p hp]

include hp hv in
theorem accessTrap_plain : accessTrap s 0 p.address = none := by
  rw [accessTrap, locate_plain hp hv, aligned_address p hp]
  simp

include hp hv in
/-- A word load of a plain register reads it. -/
theorem memRead_plain (sb : Bool) : memRead s 0 sb p.address = .done (p.word s, afterAccess p s s) := by
  have load : periphLoad p.address (optBytes 0) s = .next (p.word s, afterAccess p s s) := by
    simp only [periphLoad, hv, pregOf_address p hp, readPreg_plain hp]
  simp only [memRead, accessTrap_plain hp hv, loadFrom, locate_plain hp hv, load]
  rfl

include hp hv in
/-- A word store to a plain register is never refused (logs 32, 38) and writes it. -/
theorem memWrite_plain (v : Word) : memWrite s 0 p.address v = .done (writePreg p 4 v s) := by
  have defined : reservedWrite .am29200 p v = false := by fin_cases hp <;> rfl
  have idle : enabledChange s p v = false := by fin_cases hp <;> rfl
  have store : periphStore p.address (optBytes 0) (replicateData 0 v) s = .next (writePreg p 4 v s) := by
    have driven : replicateData 0 v = v := rfl
    simp only [periphStore, hv, pregOf_address p hp, driven, defined, idle, Bool.false_eq_true, if_false]
    rfl
  simp only [memWrite, memStore, accessTrap_plain hp hv, storeTo, locate_plain hp hv, store]
  rfl

/-! ### Instructions -/

/-- The state that a word access of address a works on, with its datum and control word in the channel registers. -/
def State.accessing (s : State) (a datum chc : Word) : State := ((s.enter.setBp false).launch none).record a datum chc

theorem sameDevices_wordAccess (s : State) (a datum chc : Word) : SameDevices s (s.accessing a datum chc) :=
  (sameDevices_accessing false s).trans (sameDevices_record _ _ _ _)

theorem coreKept_wordAccess (s : State) (a datum chc : Word) : CoreKept s (s.accessing a datum chc) := by
  refine ⟨sameRegisters_of_files ?_ ?_ ?_ ?_, ?_, ?_, ?_⟩ <;> simp [State.accessing]

theorem sameDevices_launch (s : State) (f : Option Flight) : SameDevices s (s.launch f) := by constructor <;> simp

theorem sameDevices_putReg (s : State) (k : Bool) (n : AbsReg) (v : Word) : SameDevices s (s.putReg k n v) := by
  constructor <;> simp

/-- A loaded word goes to its register, which no scan cell replaces (62 R691). -/
theorem loadFinish_word {n : AbsReg} (h : hasStorage n = true) (v : Word) (t : State) :
    loadFinish 0 n v t = .next (finish (t.putReg false n v)) := by
  simp [loadFinish, writeFinish_storage h]

variable {ra : RegNum} {b : SrcB} {n : AbsReg} (hb : ReadsB b s p.address) (hm : s.chcMl = false)

include hp hv hb hm in
theorem exec_load_plain (hw : WritesReg .A ra s n) : ∃ d c f, exec (.load 0 ra b) s =
    .next (finish (((afterAccess p (s.accessing p.address d c) (s.accessing p.address d c)).launch f).putReg false n
      (p.word s))) := by
  have same (d c : Word) := sameDevices_wordAccess s p.address d c
  have read (d c : Word) := memRead_plain hp ((same d c).variant.trans hv) false
  simp only [word_congr hp (same _ _)] at read
  have run : exec (.load 0 ra b) s = runLoad 0 ra b s := rfl
  rw [run]
  unfold runLoad
  rw [withAccess_ready hw.number hw.isOpen hb hm]
  exact ⟨_, _, _, (congrArg (Access.andThen · _ _) (read _ _)).trans (loadFinish_word hw.storage _ _)⟩

include hp hv hb hm in
theorem exec_store_plain {v : Word} (hn : resolve .A ra s = some n) (ho : isProtected s n = false)
    (hr : readReg 3 n s = v) : ∃ d c f, exec (.store 0 ra b) s =
      .next (finish ((writePreg p 4 v (s.accessing p.address d c)).launch f)) := by
  have same (d c : Word) := sameDevices_wordAccess s p.address d c
  have write (d c : Word) := memWrite_plain hp ((same d c).variant.trans hv) v
  have run : exec (.store 0 ra b) s = runStore 0 ra b s := rfl
  rw [run]
  unfold runStore
  rw [withAccess_ready hn ho hb hm, hr]
  exact ⟨_, _, _, congrArg (Access.andThen · _ _) (write _ _)⟩

end

/-- A word store to a plain register puts its implemented bits there and leaves the other plain registers alone. -/
theorem word_stored {p q : PReg} (hp : p ∈ plainRegs) (hq : q ∈ plainRegs) {s : State} (hv : s.variant = .am29200)
    (a v d c : Word) (f : Option Flight) :
    q.word (finish ((writePreg p 4 v (s.accessing a d c)).launch f)) =
      if q = p then v &&& writeMask200 p else q.word s := by
  have same := sameDevices_wordAccess s a d c
  have mask : stored (s.accessing a d c) p v = v &&& writeMask200 p := by
    rw [stored, same.variant, hv, writeMask, if_pos rfl]
  have ended (u : State) := (sameDevices_launch u f).trans (sameDevices_finish _)
  rw [word_congr hq (ended _), word_writePreg hp hq, mask, word_congr hq same]

/-- A word load of a plain register leaves every plain register alone. -/
theorem word_loaded (p : PReg) {q : PReg} (hq : q ∈ plainRegs) (s : State) (n : AbsReg) (a v d c : Word)
    (f : Option Flight) :
    q.word (finish (((afterAccess p (s.accessing a d c) (s.accessing a d c)).launch f).putReg false n v)) =
      q.word s := by
  have ended (u : State) :=
    (sameDevices_launch u f).trans ((sameDevices_putReg _ false n v).trans (sameDevices_finish _))
  rw [word_congr hq (ended _), word_afterAccess hq, word_congr hq (sameDevices_wordAccess s a d c)]

/-- Settles O54: the table lists registers of the model, and their one access path is followed for all of them at once. -/
theorem peripheralRegisterResult : Obligations.PeripheralRegisterResult := by
  unfold Obligations.PeripheralRegisterResult
  simp only [forall_plainPeripherals]
  intro p hp ra b s n hv hm hb
  constructor
  · intro v hn ho hr
    obtain ⟨d, c, f, e⟩ := exec_store_plain hp hv hb hm hn ho hr
    have words {q : PReg} (hq : q ∈ plainRegs) := word_stored hp hq hv p.address v d c f
    have kept := ((coreKept_wordAccess s p.address d c).trans (coreKept_writePreg hp 4 v _)).launch f
    exact ⟨_, e, (words hp).trans (if_pos rfl),
      fun q hq hne => (words hq).trans (if_neg fun e => hne (congrArg PReg.address e)),
      kept.sameRegisters_finish, kept.sameMemory, advances_finish kept.npc kept.cps⟩
  · intro hw
    obtain ⟨d, c, f, e⟩ := exec_load_plain hp hv hb hm hw
    have access := coreKept_afterAccess p (s.accessing p.address d c) (s.accessing p.address d c)
    have kept := ((coreKept_wordAccess s p.address d c).trans access).launch f
    exact ⟨_, e, kept.oneRegister_finish hw.storage, fun q hq => word_loaded p hq s n _ _ d c f, kept.sameMemory,
      advances_finish kept.npc kept.cps⟩

end Sys2Proof.Machine
end

section
/-! PROOFS. Decoding and encoding (30 R160-R182): each format's word decodes to what the row of its operation code reads, and
the operation codes that no row owns. -/

namespace Sys2Proof

/-! ### Fields under the M and A bits (30 R162, R163) -/

/-- The M bit, added to an even operation code, tells a constant from a register number. -/
theorem srcField_pack {o : BitVec 8} (even : o[0] = false) (c a : BitVec 8) (b : SrcB) :
    srcField (pack (o ||| b.m) c a b.byte) = b := by
  cases b <;> simp [srcField, even, SrcB.m, SrcB.byte]

theorem mBit_pack_aBit {o : BitVec 8} (even : o[0] = false) (c a b : BitVec 8) (abs : Bool) :
    mBit (pack (o ||| aBit abs) c a b) = abs := by
  cases abs <;> simp [even, aBit]

/-- The fields of the CONVERT control byte (30 R163). -/
theorem convertByte_fields (ui : BitVec 1) (rnd : BitVec 3) (fd fs : BitVec 2) :
    (convertByte ui rnd fd fs).extractLsb' 7 1 = ui ∧ (convertByte ui rnd fd fs).extractLsb' 4 3 = rnd ∧
      (convertByte ui rnd fd fs).extractLsb' 2 2 = fd ∧ (convertByte ui rnd fd fs).extractLsb' 0 2 = fs := by
  revert ui rnd fd fs
  decide

/-! ### Decoding by format (30 R164-R170) -/

/-- A packed word is read by the row of its operation code. -/
theorem decode_pack {o : BitVec 8} {r : OpRow} (row : findRow opRows o.toNat = some r) (c a b : BitVec 8) :
    decode (pack o c a b) = .instr (r.read (pack o c a b)) := by
  rw [decode, opField_pack, row]

/-- A format that ends in "RB or I": the row owns the even code and, with the M bit, the odd one. -/
theorem decode_src {o : BitVec 8} {k : RegNum → RegNum → SrcB → Instr} (even : o[0] = false)
    (row0 : findRow opRows (o ||| 0).toNat = some (rowSrc o.toNat k))
    (row1 : findRow opRows (o ||| 1).toNat = some (rowSrc o.toNat k)) (c a : RegNum) (b : SrcB) :
    decode (pack (o ||| b.m) c a b.byte) = .instr (k c a b) := by
  have row : findRow opRows (o ||| b.m).toNat = some (rowSrc o.toNat k) := by
    cases b
    · exact row0
    · exact row1
  simp only [decode_pack row, rowSrc, fieldC_pack, fieldA_pack, srcField_pack even]

/-- The JA format: the row owns the even code and, with the A bit, the odd one. -/
theorem decode_jump {o : BitVec 8} {k : Bool → RegNum → BitVec 16 → Instr} (even : o[0] = false)
    (row0 : findRow opRows (o ||| 0).toNat = some (rowJump o.toNat k))
    (row1 : findRow opRows (o ||| 1).toNat = some (rowJump o.toNat k)) (abs : Bool) (a : RegNum) (d : BitVec 16) :
    decode (pack (o ||| aBit abs) (hi8 d) a (lo8 d)) = .instr (k abs a d) := by
  have row : findRow opRows (o ||| aBit abs).toNat = some (rowJump o.toNat k) := by
    cases abs
    · exact row0
    · exact row1
  simp only [decode_pack row, rowJump, mBit_pack_aBit even, fieldA_pack, field16_pack]

/-- A format of three plain bytes. -/
theorem decode_plain {o : BitVec 8} {k : BitVec 8 → BitVec 8 → BitVec 8 → Instr}
    (row : findRow opRows o.toNat = some (rowPlain o.toNat k)) (c a b : BitVec 8) :
    decode (pack o c a b) = .instr (k c a b) := by
  simp only [decode_pack row, rowPlain, fieldC_pack, fieldA_pack, fieldB_pack]

/-- A format with a 16-bit constant. -/
theorem decode_imm16 {o : BitVec 8} {k : BitVec 8 → BitVec 16 → Instr}
    (row : findRow opRows o.toNat = some (row16 o.toNat k)) (a : BitVec 8) (v : BitVec 16) :
    decode (pack o (hi8 v) a (lo8 v)) = .instr (k a v) := by
  simp only [decode_pack row, row16, fieldA_pack, field16_pack]

/-- Settles O1: the instructions by format; the forms below a format leave one of its fields unused (30 R173). -/
theorem decodeInvertsEncode : Obligations.DecodeInvertsEncode := by
  unfold Obligations.DecodeInvertsEncode
  intro i
  cases i with
  | constn a v | consth a v | const a v | mtsrim a v => exact decode_imm16 rfl a v
  | loadl c a b | storel c a b | load c a b | store c a b | loadset c a b | loadm c a b | storem c a b
  | exbyte c a b | inbyte c a b | inhw c a b | exhw c a b | extract c a b | sll c a b | srl c a b | sra c a b
  | adds c a b | addu c a b | add c a b | addcs c a b | addcu c a b | addc c a b
  | subs c a b | subu c a b | sub c a b | subcs c a b | subcu c a b | subc c a b
  | subrs c a b | subru c a b | subr c a b | subrcs c a b | subrcu c a b | subrc c a b
  | cpbyte c a b | cplt c a b | cpltu c a b | cple c a b | cpleu c a b | cpgt c a b | cpgtu c a b | cpge c a b
  | cpgeu c a b | cpeq c a b | cpneq c a b
  | aslt c a b | asltu c a b | asle c a b | asleu c a b | asgt c a b | asgtu c a b | asge c a b | asgeu c a b
  | aseq c a b | asneq c a b
  | mul c a b | mull c a b | mulu c a b | div c a b | divl c a b | divrem c a b
  | and c a b | or c a b | xor c a b | xnor c a b | nor c a b | nand c a b | andn c a b =>
    exact decode_src rfl rfl rfl c a b
  | clz c b => exact decode_src (k := fun c _ b => .clz c b) rfl rfl rfl c 0 b
  | div0 c b => exact decode_src (k := fun c _ b => .div0 c b) rfl rfl rfl c 0 b
  | jmpf abs a d | call abs a d | jmpt abs a d | jmpfdec abs a d => exact decode_jump rfl rfl rfl abs a d
  | jmp abs d => exact decode_jump (k := fun abs _ d => .jmp abs d) rfl rfl rfl abs 0 d
  | setip c a b | emulate c a b | multm c a b | multmu c a b | multiply c a b | divide c a b | multiplu c a b
  | dividu c a b | sqrt c a b | cls c a b | feq c a b | deq c a b | fgt c a b | dgt c a b | fge c a b | dge c a b
  | fadd c a b | dadd c a b | fsub c a b | dsub c a b | fmul c a b | dmul c a b | fdiv c a b | ddiv c a b
  | fdmul c a b => exact decode_plain rfl c a b
  | exhws c a => exact decode_plain (k := fun c a _ => .exhws c a) rfl c a 0
  | mftlb c a => exact decode_plain (k := fun c a _ => .mftlb c a) rfl c a 0
  | mfsr c sa => exact decode_plain (k := fun c sa _ => .mfsr c sa) rfl c sa 0
  | mttlb a b => exact decode_plain (k := fun _ a b => .mttlb a b) rfl 0 a b
  | jmpfi a b => exact decode_plain (k := fun _ a b => .jmpfi a b) rfl 0 a b
  | calli a b => exact decode_plain (k := fun _ a b => .calli a b) rfl 0 a b
  | jmpti a b => exact decode_plain (k := fun _ a b => .jmpti a b) rfl 0 a b
  | mtsr sa b => exact decode_plain (k := fun _ sa b => .mtsr sa b) rfl 0 sa b
  | jmpi b => exact decode_plain (k := fun _ _ b => .jmpi b) rfl 0 0 b
  | iret => exact decode_plain (k := fun _ _ _ => .iret) rfl 0 0 0
  | halt => exact decode_plain (k := fun _ _ _ => .halt) rfl 0 0 0
  | iretinv => exact decode_plain (k := fun _ _ _ => .iretinv) rfl 0 0 0
  | inv => exact decode_plain (k := fun _ _ _ => .inv) rfl 0 0 0
  | convert c a ui rnd fd fs =>
    obtain ⟨hui, hrnd, hfd, hfs⟩ := convertByte_fields ui rnd fd fs
    have decoded := decode_plain (o := 0xE4#8) rfl c a (convertByte ui rnd fd fs)
    rwa [hui, hrnd, hfd, hfs] at decoded

/-- Settles O2: each word is the encoding of its instruction. -/
theorem exampleWordsDecode : Obligations.ExampleWordsDecode :=
  ⟨decodeInvertsEncode (.add 96 97 (.reg 98)), decodeInvertsEncode (.srl 96 97 (.imm 4)),
    decodeInvertsEncode (.mtsrim 134 8), decodeInvertsEncode (.jmp false 0xFFFE),
    decodeInvertsEncode (.emulate 0x50 131 134)⟩

/-! ### Unassigned operation codes (30 R182) -/

/-- A word is illegal when no row owns its operation code and the code is not reserved for emulation; the rest of the word
does not matter. -/
theorem decode_illegal_iff (w : Word) :
    (∃ op, decode w = .illegal op) ↔
      findRow opRows (opField w).toNat = none ∧ isEmulationOp (opField w).toNat = false := by
  rw [decode]
  split
  · next r row => simp [row]
  · next row =>
    split
    · next reserved => simp [reserved]
    · next free => simp [row, free]

/-- Settles O3: what is left to compare are the 256 operation codes. -/
theorem illegalCodesAreTheListed : Obligations.IllegalCodesAreTheListed := by
  unfold Obligations.IllegalCodesAreTheListed
  intro w
  rw [decode_illegal_iff, ← Option.isNone_iff_eq_none]
  generalize opField w = op
  revert op
  decide +kernel

end Sys2Proof
end

section
/-! PROOFS. A step of the core alone, and what comes at pc instead of an instruction: an illegal operation code, an instruction
without a mapping, and an operation code reserved for emulation (30 R181, R182, 60 R465, R475). -/

namespace Sys2Proof.Machine

/-! ### A step of the core alone (60 R466) -/

theorem applyPending_none {s : State} (h : s.dbg.pending = []) : applyPending s = .next s := by
  simp [applyPending, h]

/-- Where nothing but the core acts, a step is the core's cycle, after which the I/O lines are sampled. -/
theorem step_alone {s u : State} (h : CoreAlone s) (hm : s.mode = .executing) (cycle : coreCycle s = .next u)
    (hu : u.dbg = s.dbg) : step s = .next (samplePio u) := by
  have pending : (samplePio u).dbg.pending = [] := by rw [samplePio_dbg, hu, h.noCntl]
  rw [step, h.schedule]
  simp only [h.noDma, Bool.false_eq_true, if_false]
  rw [coreTurn, coreStep, if_pos (.inl hm), cycle]
  exact applyPending_none pending

/-- Without WARN, event and Wait mode the cycle fetches at pc, once the timer has counted. -/
theorem coreCycle_executes {s : State} (h : CoreExecutes s) : coreCycle s = fetchAndRun (advanceTimer s) := by
  simp [coreCycle, h.alone.noMultiple, h.noWarn, h.noEvent, h.noWait]

/-- The timer has no part in the fetch. -/
theorem fetch_advanceTimer (s : State) : fetch (advanceTimer s) (advanceTimer s).pc = fetch s s.pc := rfl

/-- An illegal operation code at pc. -/
theorem fetchAndRun_illegal {s : State} {w : Word} {op : BitVec 8} (hf : fetch s s.pc = .word w)
    (hd : decode w = .illegal op) : fetchAndRun (advanceTimer s) = trapCurr 0 (advanceTimer s) := by
  simp only [fetchAndRun, fetch_advanceTimer, hf, runWord, hd, vIllegal]

/-- No mapping for pc. -/
theorem fetchAndRun_miss {s : State} (hf : fetch s s.pc = .miss) :
    fetchAndRun (advanceTimer s) = trapCurr (if s.sm then 10 else 8) (advanceTimer s) := by
  simp only [fetchAndRun, fetch_advanceTimer, hf]
  rfl

/-- An operation code reserved for emulation at pc. -/
theorem fetchAndRun_emulation {s : State} {w : Word} {op : BitVec 8} {rc ra rb : RegNum} (hf : fetch s s.pc = .word w)
    (hd : decode w = .emulation op rc ra rb) :
    fetchAndRun (advanceTimer s) = runTrapping op rc ra rb (advanceTimer s) := by
  simp only [fetchAndRun, fetch_advanceTimer, hf, runWord, hd]

/-! ### A trap at the end of a step -/

/-- Registers, ALU Status and Q, memory and the channel registers as before. -/
structure DataKept (s t : State) : Prop where
  registers : SameRegisters s t
  status : SameStatus s t
  mem : t.mem = s.mem
  channel : SameChannel s t

theorem DataKept.sameMemory {s t : State} (h : DataKept s t) : SameMemory s t := fun a => congrArg (Memory.get · a) h.mem

theorem DataKept.trans {s t u : State} (h : DataKept s t) (k : DataKept t u) : DataKept s u where
  registers := ⟨fun n hn => (k.registers.regs n hn).trans (h.registers.regs n hn),
    k.registers.shadow.trans h.registers.shadow⟩
  status := ⟨k.status.alu.trans h.status.alu, k.status.q.trans h.status.q⟩
  mem := k.mem.trans h.mem
  channel := ⟨k.channel.cha.trans h.channel.cha, k.channel.chd.trans h.channel.chd, k.channel.chc.trans h.channel.chc⟩

theorem dataKept_advanceTimer (s : State) : DataKept s (advanceTimer s) :=
  ⟨sameRegisters_of_files rfl rfl rfl rfl, ⟨rfl, rfl⟩, rfl, ⟨rfl, rfl, rfl⟩⟩

theorem dataKept_entry (e : Word) (s : State) : DataKept s (enterHandler e (saveStatus (savePcs s))) :=
  ⟨sameRegisters_of_files rfl rfl rfl rfl, ⟨rfl, rfl⟩, rfl, ⟨rfl, rfl, rfl⟩⟩

theorem dataKept_setPointers (n : Numbers) (s : State) : DataKept s (finish (s.enter.setPointers n)) :=
  ⟨sameRegisters_of_files rfl rfl rfl rfl, ⟨rfl, rfl⟩, rfl, ⟨rfl, rfl, rfl⟩⟩

theorem dataKept_samplePio (s : State) : DataKept s (samplePio s) where
  registers := sameRegisters_of_files (samplePio_gr1 s) (samplePio_gr s) (samplePio_lr s) (samplePio_shadow s)
  status := ⟨samplePio_alu s, samplePio_q s⟩
  mem := samplePio_mem s
  channel := ⟨samplePio_cha s, samplePio_chd s, samplePio_chc s⟩

/-- What a trap entry gives is as it was after the I/O lines are sampled. -/
theorem Trapped.samplePio {vn : VecNum} {p0 p1 p2 cps : Word} {s t : State} (h : Trapped vn p0 p1 p2 cps s t) :
    Trapped vn p0 p1 p2 cps s (samplePio t) where
  handler := by simpa using h.handler
  pc0 := (samplePio_pc0 t).trans h.pc0
  pc1 := (samplePio_pc1 t).trans h.pc1
  pc2 := (samplePio_pc2 t).trans h.pc2
  ops := (samplePio_ops t).trans h.ops
  cps := (samplePio_cps t).trans h.cps

/-- A trap is entered from the point before the timer counted. -/
theorem Trapped.of_advanceTimer {vn : VecNum} {p0 p1 p2 cps : Word} {s t : State}
    (h : Trapped vn p0 p1 p2 cps (advanceTimer s) t) : Trapped vn p0 p1 p2 cps s t where
  handler := h.handler
  pc0 := h.pc0
  pc1 := h.pc1
  pc2 := h.pc2
  ops := h.ops
  cps := h.cps

theorem CanTrap.advanceTimer {vn : VecNum} {s : State} (h : CanTrap vn s) : CanTrap vn (advanceTimer s) :=
  ⟨h.enabled, h.noWarn, h.settled, h.vector⟩

theorem NumbersReady.advanceTimer {rc ra rb : RegNum} {s : State} {c a b : AbsReg} (h : NumbersReady rc ra rb s c a b) :
    NumbersReady rc ra rb (advanceTimer s) c a b :=
  ⟨h.numC, h.numA, h.numB, h.openC, h.openA, h.openB⟩

/-! ### What comes at pc instead of an instruction -/

/-- A Curr-kind trap in place of the instruction at pc is all that happens in its step. -/
theorem step_trapCurr {s : State} {vn : VecNum} (h : CoreExecutes s) (hc : CanTrap vn s)
    (run : fetchAndRun (advanceTimer s) = trapCurr vn (advanceTimer s)) :
    ∃ t, step s = .next t ∧ TrapsBefore vn s t ∧ SameRegisters s t ∧ SameStatus s t ∧ SameMemory s t ∧
      SameChannel s t ∧ SamePointers s t := by
  obtain ⟨e, he⟩ := Option.isSome_iff_exists.mp hc.advanceTimer.vector
  have entry := (trapCurr_enabled hc.advanceTimer).trans (takeTrap_some he hc.settled)
  have trapped := (trapped_of_entry he).of_advanceTimer.samplePio
  have kept := ((dataKept_advanceTimer s).trans (dataKept_entry e _)).trans (dataKept_samplePio _)
  exact ⟨_, step_alone h.alone h.mode ((coreCycle_executes h).trans (run.trans entry)) (by simp), trapped, kept.registers,
    kept.status, kept.sameMemory, kept.channel, samplePio_ipa _, samplePio_ipb _, samplePio_ipc _⟩

/-- A trapping operation code whose numbers are open sets the pointers and takes its trap (41 R240, 30 R181). -/
theorem runTrapping_taken {op : BitVec 8} {rc ra rb : RegNum} {s : State} {c a b : AbsReg}
    (hn : NumbersReady rc ra rb s c a b) (hc : CanTrap (op - 0xC0) s) :
    ∃ e, runTrapping op rc ra rb s =
        .next (enterHandler e (saveStatus (savePcs (finish (s.enter.setPointers ⟨c, a, b⟩))))) ∧
      TrapsAfter (op - 0xC0) s (enterHandler e (saveStatus (savePcs (finish (s.enter.setPointers ⟨c, a, b⟩))))) := by
  obtain ⟨numbers, allowed⟩ := resolveNumbers_ready hn
  have same : SameDevices s (s.enter.setPointers ⟨c, a, b⟩) := by constructor <;> simp
  obtain ⟨e, entry, trapped⟩ := trapNext_entry hc same rfl rfl rfl rfl rfl rfl ⟨rfl, rfl, rfl, rfl⟩
  refine ⟨e, ?_, trapped⟩
  simp only [runTrapping, numbers, allowed, guarded_open]
  exact entry

/-- Settles O51. -/
theorem illegalCodeTraps : Obligations.IllegalCodeTraps := by
  unfold Obligations.IllegalCodeTraps
  intro s h
  refine ⟨fun w op hf hd hc => step_trapCurr h hc (fetchAndRun_illegal hf hd), ?miss, ?emulation⟩
  case miss =>
    rintro vn hf rfl hc
    exact step_trapCurr h hc (fetchAndRun_miss hf)
  case emulation =>
    intro w op rc ra rb c a b hf hd hn hc
    obtain ⟨e, entry, trapped⟩ := runTrapping_taken hn.advanceTimer hc.advanceTimer
    have cycle := (coreCycle_executes h).trans ((fetchAndRun_emulation hf hd).trans entry)
    have kept := ((dataKept_advanceTimer s).trans (dataKept_setPointers ⟨c, a, b⟩ _)).trans
      ((dataKept_entry e _).trans (dataKept_samplePio _))
    exact ⟨_, step_alone h.alone h.mode cycle (by simp), trapped.of_advanceTimer.samplePio, samplePio_ipc _, samplePio_ipa _,
      samplePio_ipb _, kept.registers, kept.status, kept.sameMemory, kept.channel⟩

end Sys2Proof.Machine
end

section
/-! PROOFS. The adds and subtracts of 40: the adder against the integers, and what the eighteen instructions do with its
result. -/

namespace Sys2Proof.Machine

/-! ### The adder (40 R201) -/

/-- The carry out of a position of value m, where both digits lie below it. -/
theorem carryOut_eq {m n : Nat} (h : n < 2 * m) : (n / m == 1) = decide (m ≤ n) := by
  rw [Bool.eq_iff_iff, beq_iff_eq, decide_eq_true_eq, Nat.div_eq_iff (by omega)]
  omega

/-- The 33-bit sum is the exact one, and its carries into and out of bit 31 differ where the signed sum overflows. -/
theorem addCore_eq_exactSum (x y : Word) (k : Bool) : addCore x y k = exactSum x y k := by
  have hk := k.toNat_le
  have hx := x.isLt
  have hy := y.isLt
  have sum : BitVec.ofNat 32 (x.toNat + y.toNat + k.toNat) = x + y + ofFlag k := by
    apply BitVec.eq_of_toNat_eq
    cases k <;> simp [ofFlag]
  have carry : ((x.toNat + y.toNat + k.toNat) / 2 ^ 32 == 1) = decide (2 ^ 32 ≤ x.toNat + y.toNat + k.toNat) :=
    carryOut_eq (by omega)
  have carry31 : ((x.toNat % 2 ^ 31 + y.toNat % 2 ^ 31 + k.toNat) / 2 ^ 31 == 1) =
      decide (2 ^ 31 ≤ x.toNat % 2 ^ 31 + y.toNat % 2 ^ 31 + k.toNat) := carryOut_eq (by omega)
  have overflow : (decide (2 ^ 32 ≤ x.toNat + y.toNat + k.toNat) !=
      decide (2 ^ 31 ≤ x.toNat % 2 ^ 31 + y.toNat % 2 ^ 31 + k.toNat)) =
      outOfSigned (x.toInt + y.toInt + k.toNat) := by
    rw [Bool.eq_iff_iff, bne_iff_ne, ne_eq, decide_eq_decide, outOfSigned, decide_eq_true_eq,
      BitVec.toInt_eq_toNat_cond, BitVec.toInt_eq_toNat_cond]
    split <;> split <;> omega
  simp only [addCore, exactSum, sum, carry, carry31, overflow]

/-- x - y - 1 + k is x + k plus the complement of y, and a borrow is a missing carry. -/
theorem exactSum_not (x y : Word) (k : Bool) : exactSum x (~~~y) k = exactDiff x y k := by
  have hy := y.isLt
  have diff : x + ~~~y = x - y - 1 := by bv_omega
  have carry : 2 ^ 32 ≤ x.toNat + (~~~y).toNat + k.toNat ↔ y.toNat + 1 ≤ x.toNat + k.toNat := by
    rw [BitVec.toNat_not]
    omega
  have complement : (~~~y).toInt = -y.toInt - 1 := by
    rw [BitVec.toInt_eq_toNat_cond, BitVec.toInt_eq_toNat_cond, BitVec.toNat_not]
    split <;> split <;> omega
  have signed : x.toInt + (-y.toInt - 1) = x.toInt - y.toInt - 1 := by omega
  simp only [exactSum, exactDiff, diff, carry, complement, signed]

theorem addCore_not (x y : Word) (k : Bool) : addCore x (~~~y) k = exactDiff x y k :=
  (addCore_eq_exactSum x _ k).trans (exactSum_not x y k)

/-- Settles O8: the adder is the exact sum, and the exact sum with a complement is the exact difference. -/
theorem adderIsExact : Obligations.AdderIsExact :=
  fun x y k => ⟨addCore_eq_exactSum x y k, addCore_not x y k⟩

/-! ### Result and flags (40 R200, R201) -/

/-- An instruction with its operands read has written the sum a to register c and set the flags from it. -/
def summed (c : AbsReg) (a : AddResult) (s : State) : State := (s.enter.putReg true c a.r).setArithFlags a a.r

theorem oneRegister_summed {c : AbsReg} {s t : State} (h : hasStorage c = true) (a : AddResult)
    (h1 : t.gr1 = (summed c a s).gr1) (h2 : t.gr = (summed c a s).gr) (h3 : t.lr = (summed c a s).lr)
    (h4 : t.shadow = (summed c a s).shadow) : OneRegister true c a.r s t := oneRegister_of_files h h1 h2 h3 h4

theorem summed_alu (c : AbsReg) (a : AddResult) (s : State) :
    (summed c a s).alu = if s.fz then s.alu else aluVNZC s.alu a.v (bit a.r 31) (a.r == 0) a.c := rfl

@[simp] theorem summed_q (c : AbsReg) (a : AddResult) (s : State) : (summed c a s).q = s.q := rfl

/-- The flags of a sum, in every state that has ALU Status from it. -/
theorem arithFlags_summed {c : AbsReg} {a : AddResult} {s t : State} (h : t.alu = (summed c a s).alu) :
    ArithFlags a a.r s.df s t := by
  rw [summed_alu] at h
  have live (hf : s.fz = false) : t.alu = aluVNZC s.alu a.v (bit a.r 31) (a.r == 0) a.c := by simpa [hf] using h
  exact {
    frozen hf := by simpa [hf] using h
    v hf := by rw [State.vFlag, live hf, aluVNZC_v]
    n hf := by rw [State.nFlag, live hf, aluVNZC_n]
    z hf := by rw [State.zFlag, live hf, aluVNZC_z]; rfl
    c hf := by rw [State.cFlag, live hf, aluVNZC_c]
    df hf := by rw [State.df, live hf, aluVNZC_df]; rfl
    bp := by rw [State.bp, h]; split; exacts [rfl, aluVNZC_bp ..]
    fc := by rw [State.fc, h]; split; exacts [rfl, aluVNZC_fc ..] }

theorem sameDevices_summed (c : AbsReg) (a : AddResult) (s : State) : SameDevices s (summed c a s) := by
  constructor <;> simp [summed]

theorem undisturbed_summed (c : AbsReg) (a : AddResult) (s : State) : Undisturbed s (finish (summed c a s)) where
  memory _ := rfl
  saved := ⟨rfl, rfl, rfl, rfl⟩
  channel := ⟨rfl, rfl, rfl⟩
  control := ⟨rfl, rfl, rfl, rfl⟩
  pointers := ⟨rfl, rfl, rfl⟩
  devices := (sameDevices_summed c a s).trans (sameDevices_finish _)

theorem sameDevices_entry (e : Word) (s : State) : SameDevices s (enterHandler e (saveStatus (savePcs s))) := by
  constructor <;> simp

/-- A trap entry after an instruction that only computes keeps that instruction's frame but for OPS and PC0-PC2
(60 R470). -/
theorem Undisturbed.trapUndisturbed_entry {s t : State} (h : Undisturbed s t) (e : Word) :
    TrapUndisturbed s (enterHandler e (saveStatus (savePcs t))) where
  memory := h.memory
  channel := ⟨h.channel.cha, h.channel.chd, h.channel.chc⟩
  control := ⟨h.control.vab, h.control.rbp, h.control.tmc, h.control.tmr⟩
  devices := h.devices.trans (sameDevices_entry e t)

/-- Nor does the entry change the indirect pointers. -/
theorem Undisturbed.samePointers_entry {s t : State} (h : Undisturbed s t) (e : Word) :
    SamePointers s (enterHandler e (saveStatus (savePcs t))) :=
  ⟨h.pointers.ipa, h.pointers.ipb, h.pointers.ipc⟩

/-! ### The common steps of the eighteen instructions (40 R200-R202) -/

theorem runAdd_ready {chk : RangeCheck} {g : Word → Word → State → AddResult} {rc ra : RegNum} {b : SrcB} {s : State}
    {c : AbsReg} {x y : Word} (h : Ready rc ra b s c x y) :
    runAdd chk g rc ra b s =
      if chk.fails (g x y s.enter) then trapNext vOutOfRange (summed c (g x y s.enter) s)
      else .next (finish (summed c (g x y s.enter) s)) :=
  (withRRM_ready h _).trans (writeThen_storage h.dest.storage _)

/-- An instruction adds by f of SRCA, SRCB and the Carry bit, and checks its result by chk. -/
def Adds (chk : RangeCheck) (ins : RRM) (f : Word → Word → Bool → AddResult) : Prop :=
  ∃ g : Word → Word → State → AddResult, (∀ x y s, g x y s = f x y s.cFlag) ∧
    ∀ rc ra b s, exec (ins rc ra b) s = runAdd chk g rc ra b s

namespace Adds

variable {chk : RangeCheck} {ins : RRM} {f : Word → Word → Bool → AddResult} {rc ra : RegNum} {b : SrcB} {s : State}
  {c : AbsReg} {x y : Word}

/-- The effect of the instruction: result and flags, then the checked trap or completion. -/
theorem exec_ready (hi : Adds chk ins f) (h : Ready rc ra b s c x y) :
    exec (ins rc ra b) s =
      if chk.fails (f x y s.cFlag) then trapNext vOutOfRange (summed c (f x y s.cFlag) s)
      else .next (finish (summed c (f x y s.cFlag) s)) := by
  obtain ⟨g, hg, run⟩ := hi
  have sum : g x y s.enter = f x y s.cFlag := hg x y s.enter
  rw [run, runAdd_ready h, sum]

/-- No trap is due: the result is in range, or DA = 1 (60 R472). -/
theorem completes (hi : Adds chk ins f) (h : Ready rc ra b s c x y)
    (ok : chk.fails (f x y s.cFlag) = false ∨ s.da = true) :
    ∃ t, exec (ins rc ra b) s = .next t ∧ OneRegister true c (f x y s.cFlag).r s t ∧
      ArithFlags (f x y s.cFlag) (f x y s.cFlag).r s.df s t ∧ t.q = s.q ∧ Advances s t ∧ Undisturbed s t := by
  have run : exec (ins rc ra b) s = .next (finish (summed c (f x y s.cFlag) s)) := by
    rw [hi.exec_ready h]
    split
    next due =>
      have disabled : s.da = true := ok.resolve_left (by simp [due])
      exact trapNext_disabled disabled
    next => rfl
  exact ⟨_, run, oneRegister_summed h.dest.storage _ rfl rfl rfl rfl, arithFlags_summed rfl, rfl, advances_finish rfl rfl,
    undisturbed_summed _ _ _⟩

/-- The Out-of-Range trap is due and can be taken. -/
theorem traps (hi : Adds chk ins f) (h : Ready rc ra b s c x y) (due : chk.fails (f x y s.cFlag) = true)
    (hc : CanTrap 2 s) :
    ∃ t, exec (ins rc ra b) s = .next t ∧ OneRegister true c (f x y s.cFlag).r s t ∧
      ArithFlags (f x y s.cFlag) (f x y s.cFlag).r s.df s t ∧ t.q = s.q ∧ TrapsAfter 2 s t ∧
      SamePointers s t ∧ TrapUndisturbed s t := by
  obtain ⟨e, entry, trapped⟩ := trapNext_entry hc (sameDevices_summed c (f x y s.cFlag) s) rfl rfl rfl rfl rfl rfl
    ⟨rfl, rfl, rfl, rfl⟩
  have run := (hi.exec_ready h).trans ((if_pos due).trans entry)
  have frame := undisturbed_summed c (f x y s.cFlag) s
  exact ⟨_, run, oneRegister_summed h.dest.storage _ rfl rfl rfl rfl, arithFlags_summed rfl, by simp, trapped,
    frame.samePointers_entry e, frame.trapUndisturbed_entry e⟩

end Adds

/-! ### The tables -/

theorem plainSums_add : ∀ p ∈ plainSums, Adds .unchecked p.1 p.2 := by
  simp only [plainSums, List.forall_mem_cons, List.not_mem_nil, false_imp_iff, implies_true, and_true]
  exact ⟨⟨sumOf, fun _ _ _ => addCore_eq_exactSum .., fun _ _ _ _ => rfl⟩,
    ⟨sumCarryOf, fun _ _ _ => addCore_eq_exactSum .., fun _ _ _ _ => rfl⟩,
    ⟨diffOf, fun _ _ _ => addCore_not .., fun _ _ _ _ => rfl⟩,
    ⟨diffCarryOf, fun _ _ _ => addCore_not .., fun _ _ _ _ => rfl⟩,
    ⟨revOf, fun _ _ _ => addCore_not .., fun _ _ _ _ => rfl⟩,
    ⟨revCarryOf, fun _ _ _ => addCore_not .., fun _ _ _ _ => rfl⟩⟩

/-- Each checked form adds as its row says, under the check that is the row's condition (40 R202). -/
theorem checkedSums_add : ∀ p ∈ checkedSums, ∃ chk : RangeCheck, Adds chk p.1 p.2.1 ∧ chk.fails = p.2.2 := by
  simp only [checkedSums, List.forall_mem_cons, List.not_mem_nil, false_imp_iff, implies_true, and_true]
  exact ⟨⟨.signed, ⟨sumOf, fun _ _ _ => addCore_eq_exactSum .., fun _ _ _ _ => rfl⟩, rfl⟩,
    ⟨.carry, ⟨sumOf, fun _ _ _ => addCore_eq_exactSum .., fun _ _ _ _ => rfl⟩, rfl⟩,
    ⟨.signed, ⟨sumCarryOf, fun _ _ _ => addCore_eq_exactSum .., fun _ _ _ _ => rfl⟩, rfl⟩,
    ⟨.carry, ⟨sumCarryOf, fun _ _ _ => addCore_eq_exactSum .., fun _ _ _ _ => rfl⟩, rfl⟩,
    ⟨.signed, ⟨diffOf, fun _ _ _ => addCore_not .., fun _ _ _ _ => rfl⟩, rfl⟩,
    ⟨.borrow, ⟨diffOf, fun _ _ _ => addCore_not .., fun _ _ _ _ => rfl⟩, rfl⟩,
    ⟨.signed, ⟨diffCarryOf, fun _ _ _ => addCore_not .., fun _ _ _ _ => rfl⟩, rfl⟩,
    ⟨.borrow, ⟨diffCarryOf, fun _ _ _ => addCore_not .., fun _ _ _ _ => rfl⟩, rfl⟩,
    ⟨.signed, ⟨revOf, fun _ _ _ => addCore_not .., fun _ _ _ _ => rfl⟩, rfl⟩,
    ⟨.borrow, ⟨revOf, fun _ _ _ => addCore_not .., fun _ _ _ _ => rfl⟩, rfl⟩,
    ⟨.signed, ⟨revCarryOf, fun _ _ _ => addCore_not .., fun _ _ _ _ => rfl⟩, rfl⟩,
    ⟨.borrow, ⟨revCarryOf, fun _ _ _ => addCore_not .., fun _ _ _ _ => rfl⟩, rfl⟩⟩

/-- Settles O9: without a check no trap is due. -/
theorem plainSumResult : Obligations.PlainSumResult :=
  fun p hp _ _ _ _ _ _ _ h => (plainSums_add p hp).completes h (.inl rfl)

/-- Settles O10. -/
theorem checkedSumCompletes : Obligations.CheckedSumCompletes := by
  intro p hp rc ra b s c x y h ok
  obtain ⟨chk, adds, check⟩ := checkedSums_add p hp
  exact adds.completes h (check ▸ ok)

/-- Settles O11. -/
theorem checkedSumTraps : Obligations.CheckedSumTraps := by
  intro p hp rc ra b s c x y h due hc
  obtain ⟨chk, adds, check⟩ := checkedSums_add p hp
  exact adds.traps h (check ▸ due) hc

end Sys2Proof.Machine
end

section
/-! PROOFS. The multiply and divide steps of 41, whose common effect is one register, Q and the flags of an add, and the
instructions whose whole effect is to set the indirect pointers and trap. -/

namespace Sys2Proof.Machine

/-! ### Words shifted by one bit -/

theorem shiftRight_one_putBit (w : Word) (b : Bool) :
    putBit (w >>> 1) 31 b = BitVec.ofBool b ++ w.extractLsb' 1 31 := by
  apply BitVec.eq_of_getLsbD_eq
  intro i hi
  rw [getLsbD_putBit _ _ _ _ (by decide), BitVec.getLsbD_append]
  by_cases h : i = 31
  · simp [h]
  · have low : i < 31 := by omega
    simp [h, low]

theorem shiftLeft_one_putBit (w : Word) (b : Bool) :
    putBit (w <<< 1) 0 b = w.extractLsb' 0 31 ++ BitVec.ofBool b := by
  apply BitVec.eq_of_getLsbD_eq
  intro i hi
  rw [getLsbD_putBit _ _ _ _ (by decide), BitVec.getLsbD_append]
  cases i with
  | zero => simp
  | succ j =>
    have low : j < 31 := by omega
    simp [hi, low, -BitVec.getLsbD_eq_getElem]

/-- A shift left without a replaced bit brings in a 0. -/
theorem shiftLeft_one (w : Word) : w <<< 1 = w.extractLsb' 0 31 ++ 0#1 := by
  have same : putBit (w <<< 1) 0 false = w <<< 1 := by
    apply BitVec.eq_of_getLsbD_eq
    intro i _
    rw [getLsbD_putBit _ _ _ _ (by decide)]
    split
    next h => simp [h]
    next => rfl
  exact same.symm.trans (shiftLeft_one_putBit w false)

/-! ### Result, Q and flags of a step (41 R230) -/

/-- ALU Status after an add whose written word is d, with the Divide Flag df. -/
def stepStatus (a : AddResult) (d : Word) (df : Bool) (s : State) : Word :=
  if s.fz then s.alu else putBit (aluVNZC s.alu a.v (bit a.r 31) (d == 0) a.c) 11 df

/-- An instruction with its operands read has written d to register c and q to Q, and has set the flags. -/
def stepped (c : AbsReg) (d q : Word) (a : AddResult) (df : Bool) (s : State) : State :=
  { s.enter.putReg true c d with q := q, alu := stepStatus a d df s }

/-- The flag updates keep the Divide Flag. -/
theorem putBit_aluVNZC_df (w : Word) (v n z c : Bool) :
    putBit (aluVNZC w v n z c) 11 (bit w 11) = aluVNZC w v n z c := by
  apply BitVec.eq_of_getLsbD_eq
  intro i _
  rw [getLsbD_putBit _ _ _ _ (by decide)]
  split
  next h => exact h ▸ (aluVNZC_df w v n z c).symm
  next => rfl

/-- An instruction that leaves the Divide Flag alone. -/
theorem stepStatus_keeps_df (a : AddResult) (d : Word) (s : State) :
    stepStatus a d s.df s = if s.fz then s.alu else aluVNZC s.alu a.v (bit a.r 31) (d == 0) a.c := by
  rw [stepStatus, State.df, putBit_aluVNZC_df]

theorem arithFlags_stepStatus {a : AddResult} {d : Word} {df : Bool} {s t : State} (h : t.alu = stepStatus a d df s) :
    ArithFlags a d df s t := by
  unfold stepStatus at h
  have live (hf : s.fz = false) : t.alu = putBit (aluVNZC s.alu a.v (bit a.r 31) (d == 0) a.c) 11 df := by
    simpa [hf] using h
  have flag (hf : s.fz = false) (k : Nat) (hk : k ≠ 11) :
      bit t.alu k = bit (aluVNZC s.alu a.v (bit a.r 31) (d == 0) a.c) k := by
    rw [live hf, bit_putBit_ne _ _ _ _ (by decide) hk]
  exact {
    frozen hf := by simpa [hf] using h
    v hf := (flag hf 10 (by decide)).trans (aluVNZC_v ..)
    n hf := (flag hf 9 (by decide)).trans (aluVNZC_n ..)
    z hf := (flag hf 8 (by decide)).trans (aluVNZC_z ..)
    c hf := (flag hf 7 (by decide)).trans (aluVNZC_c ..)
    df hf := by rw [State.df, live hf, bit_putBit_same _ _ _ (by decide)]
    bp := by
      rw [State.bp, h]
      split
      exacts [rfl, (bits_putBit_outside _ _ _ _ _ (by decide) (by decide)).trans (aluVNZC_bp ..)]
    fc := by
      rw [State.fc, h]
      split
      exacts [rfl, (bits_putBit_outside _ _ _ _ _ (by decide) (by decide)).trans (aluVNZC_fc ..)] }

section

variable {c : AbsReg} {d q : Word} {a : AddResult} {df : Bool} {s : State}

theorem undisturbed_stepped : Undisturbed s (finish (stepped c d q a df s)) where
  memory _ := rfl
  saved := ⟨rfl, rfl, rfl, rfl⟩
  channel := ⟨rfl, rfl, rfl⟩
  control := ⟨rfl, rfl, rfl, rfl⟩
  pointers := ⟨rfl, rfl, rfl⟩
  devices := by constructor <;> simp [stepped]

/-- What every multiply and divide step does that completes with the result d, the word q in Q and the flags of a. -/
theorem completes_stepped {i : Instr} (h : hasStorage c = true)
    (run : exec i s = .next (finish (stepped c d q a df s))) :
    ∃ t, exec i s = .next t ∧ OneRegister true c d s t ∧ ArithFlags a d df s t ∧ t.q = q ∧ Advances s t ∧
      Undisturbed s t :=
  ⟨_, run, oneRegister_of_files h rfl rfl rfl rfl, arithFlags_stepStatus rfl, rfl, advances_finish rfl rfl,
    undisturbed_stepped⟩

end

/-- The updates of a step that leaves the Divide Flag alone, in one. -/
theorem setArithFlags_eq_stepped (c : AbsReg) (d q : Word) (a : AddResult) (s : State) :
    (State.putReg { s.enter with q := q } true c d).setArithFlags a d = stepped c d q a s.df s := by
  rw [stepped, stepStatus_keeps_df]
  rfl

/-- The updates of a step that sets the Divide Flag, in one. -/
theorem setDf_eq_stepped (c : AbsReg) (d q : Word) (a : AddResult) (df : Bool) (s : State) :
    ((State.putReg { s.enter with q := q } true c d).setArithFlags a d).setDf df = stepped c d q a df s := by
  have status : (if s.fz then (if s.fz then s.alu else aluVNZC s.alu a.v (bit a.r 31) (d == 0) a.c)
      else putBit (if s.fz then s.alu else aluVNZC s.alu a.v (bit a.r 31) (d == 0) a.c) 11 df) =
      stepStatus a d df s := by
    cases h : s.fz <;> simp [stepStatus, h]
  rw [stepped, ← status]
  rfl

/-! ### Multiply steps (41 R231-R233) -/

theorem runMulStep_ready {add : Word → Word → AddResult} {top : AddResult → Bool} {rc ra : RegNum} {b : SrcB}
    {s : State} {c : AbsReg} {x y : Word} {a : AddResult} (h : Ready rc ra b s c x y)
    (sum : add (if bit s.q 0 then x else 0) y = a) :
    runMulStep add top rc ra b s =
      .next (finish (stepped c (BitVec.ofBool (top a) ++ a.r.extractLsb' 1 31)
        (BitVec.ofBool (bit a.r 0) ++ s.q.extractLsb' 1 31) a s.df s)) := by
  subst sum
  rw [← shiftRight_one_putBit, ← shiftRight_one_putBit, ← setArithFlags_eq_stepped]
  exact (withRRM_ready h _).trans (writeThen_storage h.dest.storage _)

/-- Each multiply step adds and fills the vacated bit as its row says. -/
theorem multiplySteps_run : ∀ p ∈ multiplySteps, ∃ add : Word → Word → AddResult,
    (∀ m y, add m y = p.2.1 m y) ∧ ∀ rc ra b s, exec (p.1 rc ra b) s = runMulStep add p.2.2 rc ra b s := by
  simp only [multiplySteps, List.forall_mem_cons, List.not_mem_nil, false_imp_iff, implies_true, and_true]
  exact ⟨⟨_, fun _ _ => addCore_eq_exactSum .., fun _ _ _ _ => rfl⟩,
    ⟨_, fun _ _ => addCore_not .., fun _ _ _ _ => rfl⟩,
    ⟨_, fun _ _ => addCore_eq_exactSum .., fun _ _ _ _ => rfl⟩⟩

/-- Settles O12: the selected multiplicand is added, and the sum is shifted right into Q. -/
theorem multiplyStepResult : Obligations.MultiplyStepResult := by
  intro p hp rc ra b s c x y h
  obtain ⟨add, sum, run⟩ := multiplySteps_run p hp
  exact completes_stepped h.dest.storage ((run rc ra b s).trans (runMulStep_ready h (sum _ y)))

/-! ### Divide steps (41 R234-R237) -/

theorem exec_div0_ready {rc : RegNum} {b : SrcB} {s : State} {c : AbsReg} {y : Word} (hc : WritesReg .C rc s c)
    (hb : ReadsB b s y) :
    exec (.div0 rc b) s =
      .next (finish (stepped c (y.extractLsb' 0 31 ++ BitVec.ofBool (bit s.q 31)) (s.q.extractLsb' 0 31 ++ 0#1)
        { r := y, c := false, v := false } true s)) := by
  rw [← shiftLeft_one_putBit, ← shiftLeft_one]
  show execDiv0 rc b s = _
  exact (withRM_ready hc hb _).trans (writeThen_storage hc.storage _)

/-- Settles O13: the flags are those of an add with the result SRCB and neither carry nor overflow. -/
theorem divideInitializeResult : Obligations.DivideInitializeResult := by
  intro rc b s c y hc hb
  obtain ⟨t, run, result, flags, q, advances, frame⟩ := completes_stepped hc.storage (exec_div0_ready hc hb)
  exact ⟨t, run, result, q, flags.frozen, fun hf => ⟨flags.df hf, flags.n hf, flags.z hf, flags.v hf, flags.c hf⟩,
    flags.bp, flags.fc, advances, frame⟩

theorem divAdd_eq (s : State) (x y : Word) :
    divAdd s x y = if s.df then exactDiff x y true else exactSum x y false := by
  rw [divAdd, addCore_not, addCore_eq_exactSum]

theorem runDivStep_ready {shift : Bool} {rc ra : RegNum} {b : SrcB} {s : State} {c : AbsReg} {x y : Word}
    {a : AddResult} (h : Ready rc ra b s c x y) (sum : divAdd s x y = a) :
    runDivStep shift rc ra b s =
      .next (finish (stepped c (if shift then a.r.extractLsb' 0 31 ++ BitVec.ofBool (bit s.q 31) else a.r)
        (s.q.extractLsb' 0 31 ++ BitVec.ofBool (divideFlag s a.c)) a (divideFlag s a.c) s)) := by
  subst sum
  rw [← shiftLeft_one_putBit, ← shiftLeft_one_putBit, ← setDf_eq_stepped]
  exact (withRRM_ready h _).trans (writeThen_storage h.dest.storage _)

/-- DIV and DIVL are divide steps with and without the shift of the result (41 R235, R236). -/
theorem divideSteps_run : ∀ p ∈ [((Instr.div : RRM), true), (Instr.divl, false)], ∀ rc ra b s,
    exec (p.1 rc ra b) s = runDivStep p.2 rc ra b s := by
  simp only [List.forall_mem_cons, List.not_mem_nil, false_imp_iff, implies_true, and_true]
  exact ⟨fun _ _ _ _ => rfl, fun _ _ _ _ => rfl⟩

/-- Settles O14: DIV and DIVL share one divide step, whose add is the exact sum or difference. -/
theorem divideStepResult : Obligations.DivideStepResult :=
  fun p hp rc ra b s _ x y h =>
    completes_stepped h.dest.storage ((divideSteps_run p hp rc ra b s).trans (runDivStep_ready h (divAdd_eq s x y)))

theorem exec_divrem_ready {rc ra : RegNum} {b : SrcB} {s : State} {c : AbsReg} {x y : Word} {a : AddResult}
    (h : Ready rc ra b s c x y) (sum : exactSum x (if s.df then 0 else y) false = a) :
    exec (.divrem rc ra b) s = .next (finish (stepped c a.r s.q a s.df s)) := by
  have add : (if s.df then addCore x 0 false else addCore x y false) = a := by
    rw [← sum, addCore_eq_exactSum, addCore_eq_exactSum]
    split <;> rfl
  subst add
  rw [← setArithFlags_eq_stepped]
  show execDivrem rc ra b s = _
  exact (withRRM_ready h _).trans (writeThen_storage h.dest.storage _)

/-- Settles O15: no correction is the addition of 0. -/
theorem divideRemainderResult : Obligations.DivideRemainderResult :=
  fun _ _ _ _ _ _ _ h => completes_stepped h.dest.storage (exec_divrem_ready h rfl)

/-! ### Trapping instructions (41 R240-R246, 47 R380-R402) -/

/-- The operation code of a trapping instruction is its vector plus 0xC0 (41 R240). -/
theorem trappingRegs_run : ∀ p ∈ trappingRegs, ∀ rc ra rb s,
    exec (p.1 rc ra rb) s = runTrapping (p.2 + 0xC0) rc ra rb s := by
  simp only [trappingRegs, List.forall_mem_cons, List.not_mem_nil, false_imp_iff, implies_true, and_true]
  and_intros <;> exact fun _ _ _ _ => rfl

/-- So it is for CONVERT with its control byte as RB (47 R382). -/
theorem trapping_run {i : Instr} {rc ra rb : RegNum} {vn : VecNum} (h : trapping i rc ra rb vn) (s : State) :
    exec i s = runTrapping (vn + 0xC0) rc ra rb s := by
  rcases h with ⟨p, hp, rfl, rfl⟩ | ⟨ui, rnd, fd, fs, rfl, rfl, rfl⟩
  · exact trappingRegs_run p hp rc ra rb s
  · rfl

/-- While DA = 1 the pointers are set and the instruction completes (60 R472, D17). -/
theorem runTrapping_disabled {op : BitVec 8} {rc ra rb : RegNum} {s : State} {c a b : AbsReg}
    (hn : NumbersReady rc ra rb s c a b) (hd : s.da = true) :
    runTrapping op rc ra rb s = .next (finish (s.enter.setPointers ⟨c, a, b⟩)) := by
  obtain ⟨numbers, allowed⟩ := resolveNumbers_ready hn
  simp only [runTrapping, numbers, allowed, guarded_open]
  exact trapNext_disabled hd

theorem trapUndisturbed_setPointers (n : Numbers) (s : State) :
    TrapUndisturbed s (finish (s.enter.setPointers n)) where
  memory _ := rfl
  channel := ⟨rfl, rfl, rfl⟩
  control := ⟨rfl, rfl, rfl, rfl⟩
  devices := by constructor <;> simp

/-- A trap entry leaves alone what the instruction before it did. -/
theorem TrapUndisturbed.entry {s t : State} (h : TrapUndisturbed s t) (e : Word) :
    TrapUndisturbed s (enterHandler e (saveStatus (savePcs t))) where
  memory := h.memory
  channel := ⟨h.channel.cha, h.channel.chd, h.channel.chc⟩
  control := ⟨h.control.vab, h.control.rbp, h.control.tmc, h.control.tmr⟩
  devices := h.devices.trans (sameDevices_entry e t)

/-- Settles O16: the pointers are set first, then comes the trap, or completion while DA = 1. -/
theorem trappingInstructionTraps : Obligations.TrappingInstructionTraps := by
  intro i rc ra rb vn s c a b hi hn
  have run := trapping_run hi s
  have kept := dataKept_setPointers ⟨c, a, b⟩ s
  have frame := trapUndisturbed_setPointers ⟨c, a, b⟩ s
  constructor
  · intro hc
    have vector : vn + 0xC0 - 0xC0 = vn := BitVec.add_sub_cancel ..
    obtain ⟨e, entry, trapped⟩ := runTrapping_taken hn (vector ▸ hc)
    have keptByEntry := kept.trans (dataKept_entry e _)
    exact ⟨_, run.trans entry, vector ▸ trapped, rfl, rfl, rfl, keptByEntry.registers, keptByEntry.status,
      frame.entry e⟩
  · intro hd
    exact ⟨_, run.trans (runTrapping_disabled hn hd), advances_finish rfl rfl, rfl, rfl, rfl, kept.registers,
      kept.status, ⟨rfl, rfl, rfl, rfl⟩, frame⟩

end Sys2Proof.Machine
end

section
/-! PROOFS. The compares and asserts of 42: their relations against the operands as numbers, the compare's result, and what an
assert does where its relation holds and where it fails. -/

namespace Sys2Proof.Machine

/-! ### The relations (42 R261-R271) -/

theorem relNeq_eq : relNeq = fun x y => decide (x ≠ y) := by
  funext x y
  rw [decide_not]
  rfl

/-- The k-th byte from the left begins at bit 24 - 8k. -/
theorem byteOfWord_rev (w : Word) (k : Fin 4) : byteOfWord w k.rev = w.extractLsb' (8 * k.val) 8 := by
  have start : 24 - 8 * k.rev.val = 8 * k.val := by rw [Fin.val_rev]; omega
  rw [byteOfWord, start]

/-- Both count the four byte positions, one from the left and one from the right. -/
theorem relByte_eq : relByte = fun x y =>
    decide (∃ k : Fin 4, (x.extractLsb' (8 * k.val) 8 : BitVec 8) = y.extractLsb' (8 * k.val) 8) := by
  funext x y
  rw [Bool.eq_iff_iff, decide_eq_true_eq, relByte, List.any_eq_true]
  constructor
  · rintro ⟨k, inRange, same⟩
    obtain ⟨j, rfl⟩ : ∃ j : Fin 4, k = j.rev.val := ⟨Fin.rev ⟨k, List.mem_range.mp inRange⟩, by rw [Fin.rev_rev]⟩
    rw [beq_iff_eq, byteOfWord_rev, byteOfWord_rev] at same
    exact ⟨j, same⟩
  · rintro ⟨j, same⟩
    rw [← byteOfWord_rev, ← byteOfWord_rev, ← beq_iff_eq] at same
    exact ⟨j.rev, List.mem_range.mpr j.rev.isLt, same⟩

/-- Each compare uses the relation of its row; the orders are those of the numbers by definition. -/
theorem compares_run : ∀ p ∈ compares, ∀ rc ra b s, exec (p.1 rc ra b) s = runCompare p.2 rc ra b s := by
  simp only [compares, List.forall_mem_cons, List.not_mem_nil, false_imp_iff, implies_true, and_true]
  rw [← relNeq_eq, ← relByte_eq]
  and_intros <;> exact fun _ _ _ _ => rfl

/-- So does each assert. -/
theorem asserts_run : ∀ p ∈ asserts, ∀ vn ra b s, exec (p.1 vn ra b) s = runAssert p.2 vn ra b s := by
  simp only [asserts, List.forall_mem_cons, List.not_mem_nil, false_imp_iff, implies_true, and_true]
  rw [← relNeq_eq]
  and_intros <;> exact fun _ _ _ _ => rfl

/-! ### Compares (42 R260) -/

theorem runCompare_ready {rel : Word → Word → Bool} {rc ra : RegNum} {b : SrcB} {s : State} {c : AbsReg} {x y : Word}
    (h : Ready rc ra b s c x y) :
    runCompare rel rc ra b s = .next (finish (s.enter.putReg false c (truth (rel x y)))) :=
  (withRRM_ready h _).trans (writeFinish_storage h.dest.storage)

/-- Settles O17: the truth value of the relation is the only thing written. -/
theorem compareResult : Obligations.CompareResult := by
  intro p hp rc ra b s c x y h
  have run := (compares_run p hp rc ra b s).trans (runCompare_ready h)
  exact ⟨_, run, oneRegister_of_files h.dest.storage rfl rfl rfl rfl, ⟨rfl, rfl⟩, advances_finish rfl rfl,
    undisturbed_putReg s c _⟩

/-! ### Asserts (42 R275) -/

/-- Completion touches CPS and the program counters alone. -/
theorem Undisturbed.finish {s t : State} (h : Undisturbed s t) : Undisturbed s (finish t) := by
  obtain ⟨memory, ⟨ops, pc0, pc1, pc2⟩, ⟨cha, chd, chc⟩, ⟨vab, rbp, tmc, tmr⟩, ⟨ipa, ipb, ipc⟩, devices⟩ := h
  exact ⟨memory, ⟨ops, pc0, pc1, pc2⟩, ⟨cha, chd, chc⟩, ⟨vab, rbp, tmc, tmr⟩, ⟨ipa, ipb, ipc⟩,
    devices.trans (sameDevices_finish t)⟩

/-- An instruction that writes nothing: data, special registers but CPS, and everything outside the core as before. -/
structure WritesNothing (s t : State) : Prop where
  data : DataKept s t
  frame : Undisturbed s t

/-- Reading the operands writes nothing. -/
theorem writesNothing_enter (s : State) : WritesNothing s s.enter where
  data := ⟨sameRegisters_of_files rfl rfl rfl rfl, ⟨rfl, rfl⟩, rfl, ⟨rfl, rfl, rfl⟩⟩
  frame := ⟨fun _ => rfl, ⟨rfl, rfl, rfl, rfl⟩, ⟨rfl, rfl, rfl⟩, ⟨rfl, rfl, rfl, rfl⟩, ⟨rfl, rfl, rfl⟩,
    by constructor <;> simp⟩

/-- Nor does completion. -/
theorem WritesNothing.finish {s t : State} (h : WritesNothing s t) : WritesNothing s (finish t) where
  data := h.data.trans ⟨sameRegisters_of_files rfl rfl rfl rfl, ⟨rfl, rfl⟩, rfl, ⟨rfl, rfl, rfl⟩⟩
  frame := h.frame.finish

/-- A trap entry after an instruction that writes nothing. -/
theorem WritesNothing.entry {s t : State} (h : WritesNothing s t) (e : Word) :
    SameRegisters s (enterHandler e (saveStatus (savePcs t))) ∧ SameStatus s (enterHandler e (saveStatus (savePcs t))) ∧
      SamePointers s (enterHandler e (saveStatus (savePcs t))) ∧
      TrapUndisturbed s (enterHandler e (saveStatus (savePcs t))) :=
  have kept := h.data.trans (dataKept_entry e t)
  ⟨kept.registers, kept.status, h.frame.samePointers_entry e, h.frame.trapUndisturbed_entry e⟩

section

variable {rel : Word → Word → Bool} {vn : VecNum} {ra : RegNum} {b : SrcB} {s : State} {x y : Word}

theorem runAssert_ready (hx : ReadsA ra s x) (hy : ReadsB b s y) :
    runAssert rel vn ra b s =
      if rel x y || s.da then .next (finish s.enter)
      else if reservedVector s vn then trapCurr vProtection s.enter
      else trapNext vn s.enter := withAB_ready hx hy _

theorem reservedVector_iff : reservedVector s vn = true ↔ s.sm = false ∧ vn.toNat < 64 := by
  rw [reservedVector, Bool.and_eq_true, Bool.not_eq_true', decide_eq_true_eq]

theorem runAssert_completes (hx : ReadsA ra s x) (hy : ReadsB b s y) (ok : rel x y = true ∨ s.da = true) :
    runAssert rel vn ra b s = .next (finish s.enter) :=
  (runAssert_ready hx hy).trans (if_pos ((Bool.or_eq_true ..).mpr ok))

/-- The relation fails and traps are enabled. -/
theorem runAssert_fails (hx : ReadsA ra s x) (hy : ReadsB b s y) (fails : rel x y = false) (hd : s.da = false) :
    runAssert rel vn ra b s = if s.sm = false ∧ vn.toNat < 64 then trapCurr 5 s.enter else trapNext vn s.enter := by
  rw [runAssert_ready hx hy, if_neg (by simp [fails, hd])]
  exact if_congr reservedVector_iff rfl rfl

end

/-- Settles O18. -/
theorem assertHoldsChangesNothing : Obligations.AssertHoldsChangesNothing := by
  intro p hp vn ra b s x y hx hy ok
  have run := (asserts_run p hp vn ra b s).trans (runAssert_completes hx hy ok)
  obtain ⟨data, frame⟩ := (writesNothing_enter s).finish
  exact ⟨_, run, data.registers, data.status, advances_finish rfl rfl, frame⟩

/-- Settles O19: the trap to the assert's own vector comes after completion, the Protection Violation before it. -/
theorem assertFailsTraps : Obligations.AssertFailsTraps := by
  intro p hp vn ra b s x y hx hy fails
  have run (hd : s.da = false) := (asserts_run p hp vn ra b s).trans (runAssert_fails hx hy fails hd)
  have entered := writesNothing_enter s
  constructor
  · intro allowed hc
    obtain ⟨e, entry, trapped⟩ := trapNext_entry hc entered.frame.devices rfl rfl rfl rfl rfl rfl entered.frame.saved
    exact ⟨_, (run hc.enabled).trans ((if_neg allowed).trans entry), trapped, entered.finish.entry e⟩
  · intro reserved hc
    obtain ⟨e, entry, trapped⟩ := trapCurr_enter hc
    exact ⟨_, (run hc.enabled).trans ((if_pos reserved).trans entry), trapped, entered.entry e⟩

end Sys2Proof.Machine
end

section
/-! PROOFS. The logical instructions of 43: which bits of ALU Status their flag update sets and which it keeps, and their common
effect of one register and these flags. -/

namespace Sys2Proof.Machine

/-! ### N and Z of a logical result (43 R300) -/

section

variable (s : State) (r : Word)

theorem setLogicFlags_frozen (hf : s.fz = true) : (s.setLogicFlags r).alu = s.alu := if_pos hf

theorem setLogicFlags_live (hf : s.fz = false) :
    (s.setLogicFlags r).alu = putBit (putBit s.alu 9 (bit r 31)) 8 (r == 0) := if_neg (by simp [hf])

theorem setLogicFlags_nFlag (hf : s.fz = false) : (s.setLogicFlags r).nFlag = bit r 31 := by
  rw [State.nFlag, setLogicFlags_live s r hf, bit_putBit_ne _ _ _ _ (by decide) (by decide),
    bit_putBit_same _ _ _ (by decide)]

theorem setLogicFlags_zFlag (hf : s.fz = false) : (s.setLogicFlags r).zFlag = decide (r = 0) := by
  rw [State.zFlag, setLogicFlags_live s r hf, bit_putBit_same _ _ _ (by decide)]
  rfl

/-- A field of ALU Status without N (bit 9) and Z (bit 8). -/
theorem bits_setLogicFlags_outside {lo n : Nat} (h : lo + n ≤ 8 ∨ 9 < lo) :
    bits (s.setLogicFlags r).alu lo n = bits s.alu lo n := by
  cases hf : s.fz with
  | true => rw [setLogicFlags_frozen s r hf]
  | false =>
    rw [setLogicFlags_live s r hf, bits_putBit_outside _ _ _ _ _ (by decide) (by omega),
      bits_putBit_outside _ _ _ _ _ (by decide) (by omega)]

/-- A bit of ALU Status other than N and Z. -/
theorem bit_setLogicFlags_ne {k : Nat} (hz : k ≠ 8) (hn : k ≠ 9) : bit (s.setLogicFlags r).alu k = bit s.alu k := by
  cases hf : s.fz with
  | true => rw [setLogicFlags_frozen s r hf]
  | false =>
    rw [setLogicFlags_live s r hf, bit_putBit_ne _ _ _ _ (by decide) hz, bit_putBit_ne _ _ _ _ (by decide) hn]

end

/-! ### Result and frame (43 R300) -/

/-- An instruction with its operands read has written the logical result r to register c and set N and Z from it. The register
write changes neither ALU Status nor FZ, so that its ALU Status is by definition that of `s.setLogicFlags r`. -/
def logicWritten (c : AbsReg) (r : Word) (s : State) : State := (s.enter.putReg true c r).setLogicFlags r

theorem undisturbed_logicWritten (c : AbsReg) (r : Word) (s : State) : Undisturbed s (finish (logicWritten c r s)) where
  memory _ := rfl
  saved := ⟨rfl, rfl, rfl, rfl⟩
  channel := ⟨rfl, rfl, rfl⟩
  control := ⟨rfl, rfl, rfl, rfl⟩
  pointers := ⟨rfl, rfl, rfl⟩
  devices := by constructor <;> simp [logicWritten]

/-! ### The instructions (43 R301-R307) -/

theorem runLogical_ready {f : Word → Word → Word} {rc ra : RegNum} {b : SrcB} {s : State} {c : AbsReg} {x y : Word}
    (h : Ready rc ra b s c x y) : runLogical f rc ra b s = .next (finish (logicWritten c (f x y) s)) :=
  (withRRM_ready h _).trans (writeThen_storage h.dest.storage _)

/-- Each logical instruction computes the function of its row. -/
theorem logicals_run : ∀ p ∈ logicals, ∀ rc ra b s, exec (p.1 rc ra b) s = runLogical p.2 rc ra b s := by
  simp only [logicals, List.forall_mem_cons, List.not_mem_nil, false_imp_iff, implies_true, and_true]
  and_intros <;> exact fun _ _ _ _ => rfl

/-- Settles O20: register and flags are those of `logicWritten`, whose flag update sets N and Z alone. -/
theorem logicalResult : Obligations.LogicalResult := by
  intro p hp rc ra b s c x y h
  have run := (logicals_run p hp rc ra b s).trans (runLogical_ready h)
  refine ⟨_, run, oneRegister_of_files h.dest.storage rfl rfl rfl rfl, ?frozen, ?flags, ?v, ?c, ?df, ?bp, ?fc, rfl,
    advances_finish rfl rfl, undisturbed_logicWritten c _ s⟩
  case frozen => exact setLogicFlags_frozen s _
  case flags => exact fun hf => ⟨setLogicFlags_nFlag s _ hf, setLogicFlags_zFlag s _ hf⟩
  case v | c | df => exact bit_setLogicFlags_ne s _ (by decide) (by decide)
  case bp | fc => exact bits_setLogicFlags_outside s _ (by decide)

end Sys2Proof.Machine
end

section
/-! PROOFS. The shift instructions of 44: their results as arithmetic on the shifted number, EXTRACT as the two shifts that make
up its word, and what an instruction does that only moves a computed word to its destination. -/

namespace Sys2Proof.Machine

/-! ### Shifts against numbers (44 R317-R319) -/

theorem shiftLeft_eq_ofNat (x : Word) (n : Nat) : x <<< n = BitVec.ofNat 32 (x.toNat * 2 ^ n) := by
  apply BitVec.eq_of_toNat_eq
  rw [BitVec.toNat_shiftLeft, Nat.shiftLeft_eq, BitVec.toNat_ofNat]

theorem ushiftRight_eq_ofNat (x : Word) (n : Nat) : x >>> n = BitVec.ofNat 32 (x.toNat / 2 ^ n) := by
  rw [← Nat.shiftRight_eq_div_pow, ← BitVec.toNat_ushiftRight, BitVec.ofNat_toNat, BitVec.setWidth_eq]

theorem sshiftRight_eq_ofInt (x : Word) (n : Nat) : x.sshiftRight n = BitVec.ofInt 32 (x.toInt / 2 ^ n) := by
  rw [BitVec.sshiftRight, Int.shiftRight_eq_div_pow, Nat.cast_pow, Nat.cast_ofNat]

/-! ### The funnel shift (44 R320) -/

/-- Bit i of the word at position n of x // y comes from x where i is at least n, and from the upper n bits of y below. -/
theorem getLsbD_funnel (x y : Word) {n i : Nat} (hn : n ≤ 32) (hi : i < 32) :
    (funnel x y n).getLsbD i = if n ≤ i then x.getLsbD (i - n) else y.getLsbD (32 + i - n) := by
  have inside : 32 + i < 64 := by omega
  have kept : ¬ 32 + i < n := by omega
  rw [funnel, BitVec.getLsbD_extractLsb', BitVec.getLsbD_shiftLeft, BitVec.getLsbD_append]
  by_cases h : n ≤ i
  · have high : ¬ 32 + i - n < 32 := by omega
    have place : 32 + i - n - 32 = i - n := by omega
    simp [h, hi, inside, kept, high, place]
  · have low : 32 + i - n < 32 := by omega
    simp [h, hi, inside, kept, low]

/-- So it is x moved up by n places over the upper n bits of y. -/
theorem funnel_eq (x y : Word) {n : Nat} (hn : n ≤ 32) : funnel x y n = x <<< n ||| y >>> (32 - n) := by
  apply BitVec.eq_of_getLsbD_eq
  intro i hi
  rw [getLsbD_funnel x y hn hi, BitVec.getLsbD_or, BitVec.getLsbD_shiftLeft, BitVec.getLsbD_ushiftRight]
  by_cases h : n ≤ i
  · have beyond : y.getLsbD (32 - n + i) = false := BitVec.getLsbD_of_ge _ _ (by omega)
    simp [h, hi, beyond, Nat.not_lt.mpr h]
  · have place : 32 + i - n = 32 - n + i := by omega
    simp [h, place, Nat.lt_of_not_le h]

/-- At position 0 there are no bits of y below x. -/
theorem funnel_zero (x y : Word) : funnel x y 0 = x := by
  have gone : y >>> 32 = 0 := BitVec.ushiftRight_eq_zero (by decide)
  rw [funnel_eq x y (by decide), BitVec.shiftLeft_zero, gone]
  exact BitVec.or_zero

/-! ### Result and frame (44 R316-R320) -/

theorem runPlain_ready {f : Word → Word → State → Word} {rc ra : RegNum} {b : SrcB} {s : State} {c : AbsReg} {x y : Word}
    (h : Ready rc ra b s c x y) :
    runPlain f rc ra b s = .next (finish (s.enter.putReg false c (f x y s.enter))) :=
  (withRRM_ready h _).trans (writeFinish_storage h.dest.storage)

/-- An instruction that moves a computed word to its destination completes, and that word is the only thing written. -/
theorem completes_runPlain {f : Word → Word → State → Word} {i : Instr} {rc ra : RegNum} {b : SrcB} {s : State}
    {c : AbsReg} {x y : Word} (h : Ready rc ra b s c x y) (run : exec i s = runPlain f rc ra b s) :
    ∃ t, exec i s = .next t ∧ OneRegister false c (f x y s.enter) s t ∧ SameStatus s t ∧ Advances s t ∧
      Undisturbed s t :=
  ⟨_, run.trans (runPlain_ready h), oneRegister_of_files h.dest.storage rfl rfl rfl rfl, ⟨rfl, rfl⟩,
    advances_finish rfl rfl, undisturbed_putReg s c _⟩

/-- Each shift computes the number of its row. -/
theorem shifts_run : ∀ p ∈ shifts, ∀ rc ra b s,
    exec (p.1 rc ra b) s = runPlain (fun x y _ => p.2 x y) rc ra b s := by
  simp only [shifts, ← shiftLeft_eq_ofNat, ← ushiftRight_eq_ofNat, ← sshiftRight_eq_ofInt, List.forall_mem_cons,
    List.not_mem_nil, false_imp_iff, implies_true, and_true]
  and_intros <;> exact fun _ _ _ _ => rfl

/-- The funnel shift by FC, with FC = 0 apart (44 R320). -/
theorem funnel_fc (x y : Word) (s : State) :
    funnel x y s.fc.toNat = if s.fc = 0 then x else x <<< s.fc.toNat ||| y >>> (32 - s.fc.toNat) := by
  split
  next zero => rw [zero]; exact funnel_zero x y
  next => exact funnel_eq x y s.fc.isLt.le

/-- Settles O21. -/
theorem shiftResult : Obligations.ShiftResult := by
  intro rc ra b s c x y h
  constructor
  · exact fun p hp => completes_runPlain h (shifts_run p hp rc ra b s)
  · rw [← funnel_fc]
    exact completes_runPlain h (f := fun x y t => funnel x y t.fc.toNat) rfl

end Sys2Proof.Machine
end

section
/-! PROOFS. The instructions of 45 and 49 that do not access memory: bytes and half-words as replaced fields of a word, and the
instructions that do nothing but check their privilege. -/

namespace Sys2Proof.Machine

/-! ### Bytes and half-words (45 R352) -/

theorem getLsbD_withByte (x : Word) {k : Nat} (v : Byte) (i : Nat) (hk : k < 4) (hi : i < 32) :
    (withByte x k v).getLsbD i =
      if 24 - 8 * k ≤ i ∧ i < 24 - 8 * k + 8 then v.getLsbD (i - (24 - 8 * k)) else x.getLsbD i := by
  have whole : x = pack (byteOfWord x 0) (byteOfWord x 1) (byteOfWord x 2) (byteOfWord x 3) :=
    (wordOfBytes_byteOfWord x).symm
  have bytes (a b c d : Byte) : (wordOfBytes a b c d).getLsbD i = _ := getLsbD_pack a b c d i
  conv => rhs; rw [whole, getLsbD_pack]
  rw [withByte, bytes]
  interval_cases k <;> grind

/-- A replaced byte is a replaced field. -/
theorem insertByte_eq (x : Word) (k : BitVec 2) (v : Byte) : insertByte x k v = withByte x k.toNat v := by
  apply BitVec.eq_of_getLsbD_eq
  intro i hi
  rw [insertByte, getLsbD_putBits _ _ _ _ hi (by decide), getLsbD_withByte x v i k.isLt hi]

theorem getLsbD_halfAppend (u v : Half) (i : Nat) :
    (u ++ v : Word).getLsbD i = if i < 16 then v.getLsbD i else u.getLsbD (i - 16) := by
  show BitVec.getLsbD (w := 16 + 16) (u ++ v) i = _
  rw [BitVec.getLsbD_append]

theorem halves_append (x : Word) : halfOf x false ++ halfOf x true = x := by
  apply BitVec.eq_of_getLsbD_eq
  intro i hi
  rw [getLsbD_halfAppend]
  simp only [halfOf, BitVec.getLsbD_extractLsb', Bool.false_eq_true, if_false, if_true]
  split
  next low => simp [low]
  next high =>
    have place : i - 16 < 16 ∧ 16 + (i - 16) = i := by omega
    simp [place]

/-- A replaced half-word is a replaced field too. -/
theorem insertHalf_eq (x : Word) (h : Bool) (v : Half) :
    insertHalf x h v = if h then halfOf x false ++ v else v ++ halfOf x true := by
  apply BitVec.eq_of_getLsbD_eq
  intro i hi
  rw [insertHalf, getLsbD_putBits _ _ _ _ hi (by decide)]
  conv => lhs; rw [← halves_append x, getLsbD_halfAppend]
  cases h <;> grind [getLsbD_halfAppend]

/-- BP selects a half-word by its upper bit. -/
theorem bpHalf_eq (s : State) : s.bpHalf = s.bp.getLsbD 1 := by
  simp [State.bpHalf, State.bp, bit, bits]

/-- Each extract and insert moves the piece of its row. -/
theorem bytePieces_run : ∀ p ∈ bytePieces, ∀ rc ra b s,
    exec (p.1 rc ra b) s = runPlain (fun x y t => p.2 x y t.bp) rc ra b s := by
  simp only [bytePieces, List.forall_mem_cons, List.not_mem_nil, false_imp_iff, implies_true, and_true]
  have low (y : Word) (v : Byte) : putBits y 0 v = withByte y 3 v := insertByte_eq y 3 v
  have upper (y : Word) (v : Half) : putBits y 0 v = halfOf y false ++ v := insertHalf_eq y true v
  simp only [← insertHalf_eq, ← insertByte_eq]
  simp only [← low, ← upper, ← bpHalf_eq]
  and_intros <;> exact fun _ _ _ _ => rfl

theorem exec_exhws_ready {rc ra : RegNum} {s : State} {c : AbsReg} {x : Word} (hc : WritesReg .C rc s c)
    (ha : ReadsA ra s x) :
    exec (.exhws rc ra) s =
      .next (finish (s.enter.putReg false c ((halfOf x (s.bp.getLsbD 1)).signExtend 32))) := by
  obtain ⟨a, number, isOpen, value⟩ := ha
  rw [← bpHalf_eq]
  show execExhws rc ra s = _
  simp only [execExhws, hc.number, number, hc.isOpen, isOpen, Bool.or_self, guarded_open, value]
  exact writeFinish_storage hc.storage

/-- Settles O22. -/
theorem bytePieceResult : Obligations.BytePieceResult := by
  constructor
  · exact fun p hp rc ra b s c x y h => completes_runPlain h (bytePieces_run p hp rc ra b s)
  · exact fun rc ra s c x hc ha => ⟨_, exec_exhws_ready hc ha, oneRegister_of_files hc.storage rfl rfl rfl rfl, ⟨rfl, rfl⟩,
      advances_finish rfl rfl, undisturbed_putReg s c _⟩

/-! ### Instructions that only check their privilege (45 R350, R351, 49 R444) -/

theorem privilegedNop_run {i : Instr} (h : isPrivilegedNop i) (s : State) : exec i s = runPrivilegedNop s := by
  rcases h with rfl | ⟨_, _, rfl⟩ | ⟨_, _, rfl⟩ <;> rfl

theorem runPrivilegedNop_supervisor {s : State} (h : s.sm = true) : runPrivilegedNop s = .next (finish s.enter) := by
  rw [runPrivilegedNop, h]
  rfl

/-- Settles O42: reading no operand and writing no result is all that is left of such an instruction. -/
theorem privilegedNopChangesNothing : Obligations.PrivilegedNopChangesNothing := by
  intro i s hi hs
  obtain ⟨data, frame⟩ := (writesNothing_enter s).finish
  exact ⟨_, (privilegedNop_run hi s).trans (runPrivilegedNop_supervisor hs), data.registers, data.status,
    advances_finish rfl rfl, frame⟩

end Sys2Proof.Machine
end

section
/-! PROOFS. The single loads and stores of 45: what every access leaves alone, its record in the channel registers, the bytes
a store takes, and the trap of an access that is not performed. -/

namespace Sys2Proof.Machine

/-! ### What an access leaves alone (45 R331) -/

/-- The state s with what accesses may change taken from t: registers, memory, the channel registers, the access in flight,
the hazard windows and the open values used. -/
def State.accessed (s t : State) : State :=
  { s with
    gr1 := t.gr1, shadow := t.shadow, gr := t.gr, lr := t.lr, recent := t.recent, mem := t.mem
    cha := t.cha, chd := t.chd, chc := t.chc, chcMl := t.chcMl, flight := t.flight, free := t.free }

/-- Accesses alone lead from s to t. -/
def Accessed (s t : State) : Prop := t = s.accessed t

namespace Accessed

variable {s t u : State}

theorem trans (h : Accessed s t) (k : Accessed t u) : Accessed s u := by
  have step : u = t.accessed u := k
  have same : t.accessed u = (s.accessed t).accessed u := congrArg (State.accessed · u) h
  exact step.trans same

theorem launch (h : Accessed s t) (f : Option Flight) : Accessed s (t.launch f) := h.trans rfl

theorem putReg (h : Accessed s t) (k : Bool) (n : AbsReg) (v : Word) : Accessed s (t.putReg k n v) := h.trans rfl

theorem storeAt (h : Accessed s t) (opt : BitVec 3) (a v : Word) : Accessed s (t.storeAt opt a v) := h.trans rfl

theorem sameDevices (h : Accessed s t) : SameDevices s t := by
  rw [h]
  constructor <;> simp [State.accessed]

theorem sameControl (h : Accessed s t) : SameControl s t := by
  rw [h]
  exact ⟨rfl, rfl, rfl, rfl⟩

theorem samePointers (h : Accessed s t) : SamePointers s t := by
  rw [h]
  exact ⟨rfl, rfl, rfl⟩

theorem sameSaved (h : Accessed s t) : SameSaved s t := by
  rw [h]
  exact ⟨rfl, rfl, rfl, rfl⟩

theorem sameStatus (h : Accessed s t) : SameStatus s t := by
  rw [h]
  exact ⟨rfl, rfl⟩

theorem pc (h : Accessed s t) : t.pc = s.pc := by rw [h]; rfl

theorem npc (h : Accessed s t) : t.npc = s.npc := by rw [h]; rfl

theorem cps (h : Accessed s t) : t.cps = s.cps := by rw [h]; rfl

theorem fzSettle (h : Accessed s t) : t.fzSettle = s.fzSettle := by rw [h]; rfl

end Accessed

/-- With SB = 1 the Byte Pointer becomes 11 and the rest of ALU Status stays (45 R331 step 3). -/
theorem accessStatus_of_setBp {sb : Bool} {s t : State} (h : SameStatus (s.setBp sb) t) : AccessStatus sb s t := by
  obtain ⟨alu, q⟩ := h
  rw [setBp_alu] at alu
  have flag (k : Nat) (low : 7 ≤ k) (high : k < 32) : bit t.alu k = bit s.alu k := by
    rw [alu]
    split
    · rw [bit, getLsbD_putBits _ _ _ _ high (by decide), if_neg (by omega)]
      rfl
    · rfl
  refine ⟨?bp, ?fc, ⟨flag 10 ?_ ?_, flag 9 ?_ ?_, flag 8 ?_ ?_, flag 7 ?_ ?_, flag 11 ?_ ?_⟩, q⟩
  case bp =>
    rw [State.bp, alu]
    split
    · exact bits_putBits_same _ _ _ (by decide)
    · rfl
  case fc =>
    rw [State.fc, alu]
    split
    · exact bits_putBits_outside _ _ _ _ _ (by decide) (by decide) (by decide)
    · rfl
  all_goals decide

/-! ### Completion after an access -/

theorem sameDevices_setBp (s : State) (sb : Bool) : SameDevices s (s.setBp sb) := by constructor <;> simp

section

variable {sb : Bool} {s t : State} (h : Accessed (s.setBp sb) t)

include h

theorem Accessed.accessStatus : AccessStatus sb s (finish t) :=
  accessStatus_of_setBp ⟨(finish_alu t).trans h.sameStatus.alu, (finish_q t).trans h.sameStatus.q⟩

theorem Accessed.advances : Advances s (finish t) := advances_finish h.npc h.cps

theorem Accessed.undisturbed : AccessUndisturbed s (finish t) := by
  obtain ⟨ops, pc0, pc1, pc2⟩ := h.sameSaved
  obtain ⟨vab, rbp, tmc, tmr⟩ := h.sameControl
  obtain ⟨ipa, ipb, ipc⟩ := h.samePointers
  exact ⟨⟨ops, pc0, pc1, pc2⟩, ⟨vab, rbp, tmc, tmr⟩, ⟨ipa, ipb, ipc⟩,
    ((sameDevices_setBp s sb).trans h.sameDevices).trans (sameDevices_finish t)⟩

end

/-! ### The record of an access (45 R332) -/

/-- The state that an access works on, with its datum and control word in the channel registers. -/
def State.recorded (s : State) (sb : Bool) (a datum chc : Word) : State :=
  ((s.enter.setBp sb).launch none).record a datum chc

/-- The state u that an access works on: BP is set, the channel registers hold the record, and nothing else happened. -/
structure Recorded (sb : Bool) (a chc : Word) (known : Option Word) (s u : State) : Prop where
  core : CoreKept s u
  kept : Accessed (s.setBp sb) u
  record : RecordsAccess a chc known s u

/-- The datum may be given as open, as the rules leave that of a load (log 20). -/
theorem recorded (s : State) (sb : Bool) (a datum chc : Word) {known : Option Word}
    (hd : ∀ d, known = some d → datum = d) : Recorded sb a chc known s (s.recorded sb a datum chc) where
  core := by refine ⟨sameRegisters_of_files ?_ ?_ ?_ ?_, ?_, ?_, ?_⟩ <;> simp [State.recorded]
  kept := rfl
  record := by
    have cha : (s.recorded sb a datum chc).cha = if s.fz then s.cha else a := rfl
    have chd : (s.recorded sb a datum chc).chd = if s.fz then s.chd else datum := rfl
    have chc : (s.recorded sb a datum chc).chc = if s.fz then s.chc else chc := rfl
    exact {
      frozen hf := ⟨by simp [cha, hf], by simp [chd, hf], by simp [chc, hf]⟩
      cha hf := by simp [cha, hf]
      chc hf := by simp [chc, hf]
      chd hf d known := by rw [chd, if_neg (by simp [hf]), hd d known] }

theorem RecordsAccess.kept {a chc : Word} {known : Option Word} {s t u : State} (h : RecordsAccess a chc known s t)
    (k : SameChannel t u) : RecordsAccess a chc known s u where
  frozen hf :=
    ⟨k.cha.trans (h.frozen hf).cha, k.chd.trans (h.frozen hf).chd, k.chc.trans (h.frozen hf).chc⟩
  cha hf := k.cha.trans (h.cha hf)
  chc hf := k.chc.trans (h.chc hf)
  chd hf d known := k.chd.trans (h.chd hf d known)

/-- Contents Valid is the last bit of the control word. -/
theorem putBit_chcWord (cntl cr : BitVec 8) (load multi set : Bool) (n : AbsReg) (v w : Bool) :
    putBit (chcWord cntl cr load multi set n v) 0 w = chcWord cntl cr load multi set n w := by
  have last (v : Bool) (i : Nat) : (chcWord cntl cr load multi set n v).getLsbD i =
      if i < 1 then (BitVec.ofBool v).getLsbD i else (cntl ++ cr ++ BitVec.ofBool load ++ BitVec.ofBool multi ++
        BitVec.ofBool set ++ 0#3 ++ n ++ 0#1).getLsbD (i - 1) := BitVec.getLsbD_append
  apply BitVec.eq_of_getLsbD_eq
  intro i _
  rw [getLsbD_putBit _ _ _ _ (by decide), last, last]
  cases i <;> simp

/-- The record of an access that is not performed is that of a performed one with CV = 1 (45 R332). -/
theorem record_setCv (s : State) (a datum : Word) (cntl cr : BitVec 8) (load multi set : Bool) (n : AbsReg)
    (v w : Bool) : (s.record a datum (chcWord cntl cr load multi set n v)).setCv w =
      s.record a datum (chcWord cntl cr load multi set n w) := by
  have same : (s.record a datum (chcWord cntl cr load multi set n v)).fz = s.fz := rfl
  rw [State.setCv, same]
  cases hf : s.fz with
  | true => simp [State.record, hf]
  | false => simp [State.record, hf, putBit_chcWord]

/-! ### Registers and memory after an access -/

theorem SameRegisters.trans {s t u : State} (h : SameRegisters s t) (k : SameRegisters t u) : SameRegisters s u where
  regs n hn := (k.regs n hn).trans (h.regs n hn)
  shadow := k.shadow.trans h.shadow

theorem OneRegister.of_same {k : Bool} {c : AbsReg} {v : Word} {s t u : State} (h : SameRegisters s t)
    (o : OneRegister k c v t u) : OneRegister k c v s u where
  value := o.value
  others n hn hne := (o.others n hn hne).trans (h.regs n hn)
  shadow := by rw [o.shadow, shadowAfter, shadowAfter, h.shadow]

/-- A load ends with its register written. -/
theorem oneRegister_loaded (t : State) (f : Option Flight) {n : AbsReg} (v : Word) (h : hasStorage n = true) :
    OneRegister false n v t (finish ((t.launch f).putReg false n v)) := oneRegister_of_files h rfl rfl rfl rfl

theorem sameChannel_loaded (t : State) (f : Option Flight) (n : AbsReg) (v : Word) :
    SameChannel t (finish ((t.launch f).putReg false n v)) := ⟨rfl, rfl, rfl⟩

/-- A store writes no register. -/
theorem sameRegisters_storeAt (t : State) (opt : BitVec 3) (p v : Word) : SameRegisters t (t.storeAt opt p v) :=
  sameRegisters_of_files rfl rfl rfl rfl

theorem sameChannel_storeAt (t : State) (opt : BitVec 3) (p v : Word) : SameChannel t (t.storeAt opt p v) :=
  ⟨rfl, rfl, rfl⟩

theorem sameRegisters_stored (t : State) (opt : BitVec 3) (p v : Word) (f : Option Flight) :
    SameRegisters t (finish ((t.storeAt opt p v).launch f)) := sameRegisters_of_files rfl rfl rfl rfl

theorem sameChannel_stored (t : State) (opt : BitVec 3) (p v : Word) (f : Option Flight) :
    SameChannel t (finish ((t.storeAt opt p v).launch f)) := ⟨rfl, rfl, rfl⟩

/-- The bytes of an aligned datum take the low bytes of the word stored; every other byte stays (20 R106). -/
theorem storeAt_memory {s t : State} (hm : t.mem = s.mem) {opt : BitVec 3} {p v : Word} (ho : optDefined opt = true)
    (hu : unaligned opt p = false) (hw : Memory.wf s.mem = true) :
    HoldsDatum opt (t.storeAt opt p v).mem p.toNat v ∧
      SameMemoryOutside p.toNat (optBytes opt) s (t.storeAt opt p v) := by
  have mem : (t.storeAt opt p v).mem = Memory.putBytes s.mem p.toNat (storeBytes opt v) := by
    rw [storeAt_mem, hm, accessBase_aligned ho hu]
    rfl
  rw [SameMemoryOutside, mem]
  refine ⟨holdsDatum_putBytes hw _ v ho, fun x hx => ?_⟩
  rw [← storeBytes_length opt v] at hx
  exact Memory.get_putBytes_outside _ _ _ _ hx

/-! ### Loads and stores that are performed (45 R333-R337) -/

/-- LOADL is LOAD. -/
theorem loads_run : ∀ ins ∈ [Instr.load, Instr.loadl], ∀ cntl ra b s,
    exec (ins cntl ra b) s = runLoad cntl ra b s := by
  simp only [List.forall_mem_cons, List.not_mem_nil, false_imp_iff, implies_true, and_true]
  exact ⟨fun _ _ _ _ => rfl, fun _ _ _ _ => rfl⟩

/-- STOREL is STORE. -/
theorem stores_run : ∀ ins ∈ [Instr.store, Instr.storel], ∀ cntl ra b s,
    exec (ins cntl ra b) s = runStore cntl ra b s := by
  simp only [List.forall_mem_cons, List.not_mem_nil, false_imp_iff, implies_true, and_true]
  exact ⟨fun _ _ _ _ => rfl, fun _ _ _ _ => rfl⟩

section

variable {cntl : BitVec 8} {ra : RegNum} {b : SrcB} {s : State} {n : AbsReg} {a p : Word} {w : Nat}
  (hb : ReadsB b s a) (hm : s.chcMl = false) (ho : optDefined (cntlOpt cntl) = true)
  (hu : unaligned (cntlOpt cntl) a = false)

include hb hm ho hu

theorem runLoad_recorded (hw : WritesReg .A ra s n) (hp : physical s a = some p) :
    ∃ u f, Recorded (cntlSb cntl) a (chcWord cntl s.cr true false false n false) none s u ∧ runLoad cntl ra b s =
      .next (finish ((u.launch f).putReg false n (memoryDatum (cntlOpt cntl) (cntlSb cntl) s.mem p.toNat))) := by
  obtain ⟨f, run⟩ := runLoad_ready hw hb hm ho hu hp rfl
  exact ⟨_, f, recorded s _ a _ _ nofun, run⟩

theorem runStore_recorded (h1 : resolve .A ra s = some n) (h2 : isProtected s n = false) (hp : locate s a = .dram p w)
    (hn : hitsNextWords s p = false) :
    ∃ u f, Recorded (cntlSb cntl) a (chcWord cntl s.cr false false false n false)
        (some (replicateData (cntlOpt cntl) (readReg 3 n s))) s u ∧
      runStore cntl ra b s = .next (finish ((u.storeAt (cntlOpt cntl) p (readReg 3 n s)).launch f)) := by
  obtain ⟨f, run⟩ := runStore_ready h1 h2 hb hm ho hu hp hn rfl
  exact ⟨_, f, recorded s _ a _ _ fun _ => Option.some.inj, run⟩

theorem runLoadSet_recorded (hw : WritesReg .A ra s n) (hp : locate s a = .dram p w) (hn : hitsNextWords s p = false) :
    ∃ u f, Recorded (cntlSb cntl) a (chcWord cntl s.cr true false true n false) none s u ∧ runLoadSet cntl ra b s =
      .next (finish (((u.storeAt (cntlOpt cntl) p 0xFFFFFFFF).launch f).putReg false n
        (memoryDatum (cntlOpt cntl) (cntlSb cntl) s.mem p.toNat))) := by
  obtain ⟨f, run⟩ := runLoadSet_ready hw hb hm ho hu hp hn rfl
  exact ⟨_, f, recorded s _ a _ _ nofun, run⟩

end

/-- Settles O25. -/
theorem loadFromMemoryResult : Obligations.LoadFromMemoryResult := by
  intro ins hi cntl ra b s n a p hw hb hm ho hu hp
  obtain ⟨u, f, ⟨core, kept, record⟩, run⟩ := runLoad_recorded hb hm ho hu hw hp
  have ended := (kept.launch f).putReg false n (memoryDatum (cntlOpt cntl) (cntlSb cntl) s.mem p.toNat)
  exact ⟨_, (loads_run ins hi cntl ra b s).trans run, .of_same core.registers (oneRegister_loaded u f _ hw.storage),
    ended.accessStatus, record.kept (sameChannel_loaded ..), core.sameMemory, ended.advances, ended.undisturbed⟩

/-- A datum that is aligned is so at its physical address too (20 R119). -/
theorem unaligned_physical {opt : BitVec 3} {s : State} {a p : Word} {w : Nat} (hp : locate s a = .dram p w)
    (hu : unaligned opt a = false) : unaligned opt p = false :=
  (unaligned_congr (bits_low_of_low16 (locate_dram_low16 hp))).trans hu

/-- Settles O26. -/
theorem storeToMemoryResult : Obligations.StoreToMemoryResult := by
  intro ins hi cntl ra b s n a v p w h1 h2 hv hb hm ho hu hp hn hwf
  subst hv
  obtain ⟨u, f, ⟨core, kept, record⟩, run⟩ := runStore_recorded hb hm ho hu h1 h2 hp hn
  obtain ⟨bytes, others⟩ := storeAt_memory (v := readReg 3 n s) core.mem ho (unaligned_physical hp hu) hwf
  have ended := (kept.storeAt (cntlOpt cntl) p (readReg 3 n s)).launch f
  exact ⟨_, (stores_run ins hi cntl ra b s).trans run, bytes, others,
    core.registers.trans (sameRegisters_stored ..), ended.accessStatus, record.kept (sameChannel_stored ..),
    ended.advances, ended.undisturbed⟩

/-- Settles O27: LOADSET ends as a load does, on the state after its store. -/
theorem loadAndSetResult : Obligations.LoadAndSetResult := by
  intro cntl ra b s n a p w hw hb hm ho hu hp hn hwf
  obtain ⟨u, f, ⟨core, kept, record⟩, run⟩ := runLoadSet_recorded hb hm ho hu hw hp hn
  obtain ⟨bytes, others⟩ := storeAt_memory (v := 0xFFFFFFFF) core.mem ho (unaligned_physical hp hu) hwf
  have ended := ((kept.storeAt (cntlOpt cntl) p 0xFFFFFFFF).launch f).putReg false n
    (memoryDatum (cntlOpt cntl) (cntlSb cntl) s.mem p.toNat)
  have result := oneRegister_loaded (u.storeAt (cntlOpt cntl) p 0xFFFFFFFF) f
    (memoryDatum (cntlOpt cntl) (cntlSb cntl) s.mem p.toNat) hw.storage
  exact ⟨_, run, .of_same (core.registers.trans (sameRegisters_storeAt ..)) result, bytes, others, ended.accessStatus,
    (record.kept (sameChannel_storeAt ..)).kept (sameChannel_loaded ..), ended.advances, ended.undisturbed⟩

/-! ### Accesses that trap (45 R331, 20 R103) -/

theorem accessTrap_congr {s t : State} (h : SameDevices s t) (hc : t.cps = s.cps) (opt : BitVec 3) (a : Word) :
    accessTrap t opt a = accessTrap s opt a := by
  rw [accessTrap, accessTrap, locate_congr h, vDataMiss, vDataMiss, State.sm, State.sm, State.tu, State.tu, hc]

/-- A missing mapping goes before the alignment check (45 R331 step 5, log 21). -/
theorem accessTrap_due {s : State} {opt : BitVec 3} {a : Word} {vn : VecNum}
    (h : (locate s a = .miss ∧ vn = if s.sm then 11 else 9) ∨
      (locate s a ≠ .miss ∧ s.tu = true ∧ unaligned opt a = true ∧ vn = 1)) : accessTrap s opt a = some vn := by
  rcases h with ⟨miss, rfl⟩ | ⟨mapped, tu, odd, rfl⟩
  · rw [accessTrap, if_pos miss]
    rfl
  · rw [accessTrap, if_neg mapped, tu, odd]
    rfl

/-- An access trap that is enabled is taken with CV = 1 in the record. -/
theorem andThen_trap {α : Type} {x : Access α} {vn : VecNum} {s : State} (h : x = .trap vn) (hd : s.da = false)
    (a datum : Word) (cntl cr : BitVec 8) (load multi set : Bool) (n : AbsReg) (k : α → Result) :
    x.andThen (s.record a datum (chcWord cntl cr load multi set n false)) k =
      trapNext vn (s.record a datum (chcWord cntl cr load multi set n true)) := by
  have enabled : (s.record a datum (chcWord cntl cr load multi set n true)).da = false := hd
  rw [h, Access.andThen, record_setCv, trapAccess, enabled]
  rfl

/-- Each single access that meets its trap condition takes the trap before anything is transferred. -/
theorem singleAccesses_trap : ∀ p ∈ singleAccesses, ∀ {cntl ra b s n a vn}, resolve .A ra s = some n →
    isProtected s n = false → ReadsB b s a → s.chcMl = false → optDefined (cntlOpt cntl) = true →
    accessTrap s (cntlOpt cntl) a = some vn → s.da = false →
    ∃ u, Recorded (cntlSb cntl) a (chcWord cntl s.cr p.2.1 false p.2.2 n true) none s u ∧
      exec (p.1 cntl ra b) s = trapNext vn u := by
  intro p hp cntl ra b s n a vn h1 h2 hb hm ho trap hd
  obtain ⟨t, ht⟩ : ∃ t, (s.enter.setBp (cntlSb cntl)).launch none = t := ⟨_, rfl⟩
  have cr : t.cr = s.cr := ht ▸ rfl
  have enabled : t.da = false := ht ▸ hd
  have due (d c : Word) : accessTrap (t.record a d c) (cntlOpt cntl) a = some vn := by
    rw [← ht]
    exact (accessTrap_congr ((sameDevices_accessing _ s).trans (sameDevices_record ..)) rfl _ _).trans trap
  have taken (d c : Word) : Recorded (cntlSb cntl) a c none s (t.record a d c) := ht ▸ recorded s _ a d c nofun
  have loads : ∃ u, Recorded (cntlSb cntl) a (chcWord cntl s.cr true false false n true) none s u ∧
      runLoad cntl ra b s = trapNext vn u := by
    rw [runLoad, withAccess_ready h1 h2 hb hm, ht, ← cr]
    exact ⟨_, taken _ _, andThen_trap (memRead_trap ho (due _ _)) enabled ..⟩
  have stores : ∃ u, Recorded (cntlSb cntl) a (chcWord cntl s.cr false false false n true) none s u ∧
      runStore cntl ra b s = trapNext vn u := by
    rw [runStore, withAccess_ready h1 h2 hb hm, ht, ← cr]
    exact ⟨_, taken _ _, andThen_trap (memWrite_trap ho (due _ _)) enabled ..⟩
  have sets : ∃ u, Recorded (cntlSb cntl) a (chcWord cntl s.cr true false true n true) none s u ∧
      runLoadSet cntl ra b s = trapNext vn u := by
    rw [runLoadSet, withAccess_ready h1 h2 hb hm, ht, ← cr]
    exact ⟨_, taken _ _, andThen_trap (memRead_trap ho (due _ _)) enabled ..⟩
  revert p
  simp only [singleAccesses, List.forall_mem_cons, List.not_mem_nil, false_imp_iff, implies_true, and_true]
  exact ⟨loads, loads, sets, stores, stores⟩

/-- Settles O28: BP and the record are those of the access, and the trap entry leaves them. -/
theorem accessTrapsPrecisely : Obligations.AccessTrapsPrecisely := by
  intro p hp cntl ra b s n a vn h1 h2 hb hm ho hv hc
  obtain ⟨u, ⟨core, kept, record⟩, run⟩ := singleAccesses_trap p hp h1 h2 hb hm ho (accessTrap_due hv) hc.enabled
  have devices : SameDevices s u := (sameDevices_setBp s _).trans kept.sameDevices
  obtain ⟨ops, pc0, pc1, pc2⟩ := kept.sameSaved
  obtain ⟨vab, rbp, tmc, tmr⟩ := kept.sameControl
  obtain ⟨ipa, ipb, ipc⟩ := kept.samePointers
  obtain ⟨alu, q⟩ := kept.sameStatus
  obtain ⟨e, entry, trapped⟩ := trapNext_entry hc devices vab core.mem kept.cps kept.fzSettle kept.pc kept.npc
    ⟨ops, pc0, pc1, pc2⟩
  exact ⟨_, run.trans entry, trapped, core.sameRegisters_finish.trans (dataKept_entry e _).registers, core.sameMemory,
    accessStatus_of_setBp ⟨alu, q⟩, record.kept ⟨rfl, rfl, rfl⟩, ⟨vab, rbp, tmc, tmr⟩, ⟨ipa, ipb, ipc⟩,
    devices.trans ((sameDevices_finish u).trans (sameDevices_entry e _))⟩

end Sys2Proof.Machine
end

section
/-! PROOFS. LOADM and STOREM where nothing intervenes (45 R339-R341): an induction over the transfers that remain, for loads and
for stores. -/

namespace Sys2Proof.Machine

/-! ### Registers and addresses of a sequence (45 R339) -/

/-- The sequence from the next register on is the rest of the sequence. -/
theorem multipleReg_next (n : AbsReg) (k : Nat) : multipleReg (nextReg n) k = multipleReg n (k + 1) := by
  induction k with
  | zero => rfl
  | succ k ih => rw [multipleReg, ih]; rfl

theorem multipleAddr_zero (a : Word) : multipleAddr a 0 = a := BitVec.add_zero a

theorem multipleAddr_next (a : Word) (k : Nat) : multipleAddr (a + 4) k = multipleAddr a (k + 1) := by
  rw [multipleAddr, multipleAddr, Nat.mul_succ, BitVec.ofNat_add, BitVec.add_assoc, BitVec.add_comm 4]
  rfl

theorem low_multipleAddr {a : Word} (h : bits a 0 2 = 0) (k : Nat) : bits (multipleAddr a k) 0 2 = 0 := by
  refine low_add h ((low_zero_iff _).mpr ?_)
  rw [BitVec.toNat_ofNat]
  omega

/-! ### What every transfer keeps -/

theorem isProtected_congr {s t : State} (hc : t.cps = s.cps) (hr : t.rbp = s.rbp) (n : AbsReg) :
    isProtected t n = isProtected s n := by
  rw [isProtected, isProtected, State.sm, State.sm, hc, hr]

/-- The transfers that remain, of registers n.. and addresses a.., can all be made: no event, WARN or other agent
intervenes, the registers are open and present, the addresses lie in DRAM at `phys`. -/
structure TransfersReady (left : Nat) (n : AbsReg) (a : Word) (phys : Nat → Word) (s : State) : Prop where
  alone : s.schedule = []
  noDma : busTaken s = false
  noWarn : s.warnLatch = false
  noEvent : asyncEvent s = none
  aligned : bits a 0 2 = 0
  regs : ∀ k, k < left → hasStorage (multipleReg n k) = true ∧ isProtected s (multipleReg n k) = false
  memory : ∀ k, k < left → ∃ w, locate s (multipleAddr a k) = .dram (phys k) w

namespace TransfersReady

variable {left : Nat} {n : AbsReg} {a : Word} {phys : Nat → Word} {s t : State}

/-- They depend on the devices, the status, the timer and bank protection. -/
theorem congr (h : TransfersReady left n a phys s) (devices : SameDevices s t) (cps : t.cps = s.cps)
    (control : SameControl s t) : TransfersReady left n a phys t where
  alone := devices.schedule.trans h.alone
  noDma := (busTaken_congr devices).trans h.noDma
  noWarn := devices.warnLatch.trans h.noWarn
  noEvent := (asyncEvent_congr devices cps control.tmr).trans h.noEvent
  aligned := h.aligned
  regs k hk := ⟨(h.regs k hk).1, (isProtected_congr cps control.rbp _).trans (h.regs k hk).2⟩
  memory k hk := by
    rw [locate_congr devices]
    exact h.memory k hk

theorem kept (h : TransfersReady left n a phys s) (k : Accessed s t) : TransfersReady left n a phys t :=
  h.congr k.sameDevices k.cps k.sameControl

/-- The transfers after the first one. -/
theorem tail (h : TransfersReady (left + 1) n a phys s) :
    TransfersReady left (nextReg n) (a + 4) (fun k => phys (k + 1)) s where
  alone := h.alone
  noDma := h.noDma
  noWarn := h.noWarn
  noEvent := h.noEvent
  aligned := low_add_four h.aligned
  regs k hk := by
    rw [multipleReg_next]
    exact h.regs (k + 1) (Nat.succ_lt_succ hk)
  memory k hk := by
    rw [multipleAddr_next]
    exact h.memory (k + 1) (Nat.succ_lt_succ hk)

theorem first (h : TransfersReady (left + 1) n a phys s) :
    hasStorage n = true ∧ isProtected s n = false ∧ ∃ w, locate s a = .dram (phys 0) w := by
  obtain ⟨storage, isOpen⟩ := h.regs 0 (Nat.succ_pos _)
  have place := h.memory 0 (Nat.succ_pos _)
  rw [multipleAddr_zero] at place
  exact ⟨storage, isOpen, place⟩

theorem low_phys (h : TransfersReady left n a phys s) {k : Nat} (hk : k < left) : bits (phys k) 0 2 = 0 := by
  obtain ⟨w, place⟩ := h.memory k hk
  exact (bits_low_of_low16 (locate_dram_low16 place)).trans (low_multipleAddr h.aligned k)

end TransfersReady

/-- The record of a transfer changes no more than the channel registers and the open values. -/
theorem accessed_recordTransfer (load : Bool) (cntl : BitVec 8) (left : Nat) (n : AbsReg) (a : Word) (s : State) :
    Accessed s (recordTransfer load cntl left n a s.reserve) := rfl

theorem coreKept_recordTransfer (load : Bool) (cntl : BitVec 8) (left : Nat) (n : AbsReg) (a : Word) (s : State) :
    CoreKept s (recordTransfer load cntl left n a s.reserve) :=
  ⟨sameRegisters_of_files rfl rfl rfl rfl, rfl, rfl, rfl⟩

/-! ### Loads (45 R340) -/

/-- The registers n.. have taken the words at `phys`, the last of them where the sequence wrapped back to a register. -/
structure WordsLoaded (left : Nat) (n : AbsReg) (phys : Nat → Word) (s u : State) : Prop where
  last : ∀ k, k < left → (∀ j, k < j → j < left → multipleReg n j ≠ multipleReg n k) →
    regAt u (multipleReg n k) = Memory.word s.mem (phys k).toNat
  others : ∀ m, hasStorage m = true → (∀ k, k < left → multipleReg n k ≠ m) → regAt u m = regAt s m
  mem : u.mem = s.mem

/-- One word loaded before the others. -/
theorem WordsLoaded.cons {left : Nat} {n : AbsReg} {phys : Nat → Word} {s t u : State} (hn : hasStorage n = true)
    (first : OneRegister false n (Memory.word s.mem (phys 0).toNat) s t) (mem : t.mem = s.mem)
    (h : WordsLoaded left (nextReg n) (fun k => phys (k + 1)) t u) :
    WordsLoaded (left + 1) n phys s u where
  last k hk later := by
    cases k with
    | zero =>
      refine (h.others n hn fun j hj => ?_).trans first.value
      rw [multipleReg_next]
      exact later (j + 1) (Nat.succ_pos j) (Nat.succ_lt_succ hj)
    | succ k =>
      rw [← multipleReg_next, h.last k (Nat.lt_of_succ_lt_succ hk), mem]
      intro j hkj hj
      rw [multipleReg_next, multipleReg_next]
      exact later (j + 1) (Nat.succ_lt_succ hkj) (Nat.succ_lt_succ hj)
  others m hm away := by
    refine (h.others m hm fun k hk => ?_).trans (first.others m hm (away 0 (Nat.succ_pos _)).symm)
    rw [multipleReg_next]
    exact away (k + 1) (Nat.succ_lt_succ hk)
  mem := h.mem.trans mem

/-- By induction on the transfers left: each round loads one word and goes on with the rest. -/
theorem transfersLeft_loads {cntl : BitVec 8} {left : Nat} {n : AbsReg} {a : Word} {phys : Nat → Word} {s : State}
    (h : TransfersReady left n a phys s) :
    ∃ u, transfersLeft true cntl .fresh left n a s = .next (finish (endMultiple u)) ∧ Accessed s u ∧
      WordsLoaded left n phys s u := by
  induction left generalizing n a phys s with
  | zero => exact ⟨s, rfl, rfl, nofun, fun _ _ _ => rfl, rfl⟩
  | succ left ih =>
    obtain ⟨storage, isOpen, w, place⟩ := h.first
    have core := coreKept_recordTransfer true cntl left n a s
    have kept := accessed_recordTransfer true cntl left n a s
    generalize hr : recordTransfer true cntl left n a s.reserve = r at core kept
    have there : physical r a = some (phys 0) := by
      rw [physical_congr kept.sameDevices, physical, place]
    have moved := transfer_load (l := Sequence.fresh.ahead r) storage h.aligned there
    rw [core.mem] at moved
    have one : OneRegister false n _ s (r.putReg false n (Memory.word s.mem (phys 0).toNat)) :=
      .of_same core.registers (oneRegister_of_files storage rfl rfl rfl rfl)
    have step := kept.putReg false n (Memory.word s.mem (phys 0).toNat)
    obtain ⟨u, run, ended, loaded⟩ := ih (h.tail.kept step)
    refine ⟨u, ?_, step.trans ended, loaded.cons storage one core.mem⟩
    subst hr
    exact (transfersLeft_round h.alone h.noDma isOpen h.noWarn h.noEvent moved).trans run

/-! ### Stores (45 R341) -/

/-- The words at `phys` hold the registers n.., the last of them where two addresses are mapped to one word. -/
structure WordsStored (left : Nat) (n : AbsReg) (phys : Nat → Word) (s u : State) : Prop where
  last : ∀ k, k < left → (∀ j, k < j → j < left → phys j ≠ phys k) →
    Memory.word u.mem (phys k).toNat = regAt s (multipleReg n k)
  others : ∀ x, (∀ k, k < left → x < (phys k).toNat ∨ (phys k).toNat + 4 ≤ x) →
    Memory.get u.mem x = Memory.get s.mem x
  registers : SameRegisters s u

/-- A stored word reads back whole. -/
theorem word_of_holdsDatum {m : List Host.Cell} {k : Nat} {v : Word} (h : HoldsDatum 0 m k v) : Memory.word m k = v := by
  rw [Memory.word, ← Nat.add_zero k, h 0 (by decide), h 1 (by decide), h 2 (by decide), h 3 (by decide)]
  exact wordOfBytes_byteOfWord v

/-- Words that read alike byte for byte. -/
theorem word_congr_bytes {m m' : List Host.Cell} {k : Nat}
    (h : ∀ i, i < 4 → Memory.get m (k + i) = Memory.get m' (k + i)) : Memory.word m k = Memory.word m' k := by
  rw [Memory.word, Memory.word, h 1 (by decide), h 2 (by decide), h 3 (by decide), ← Nat.add_zero k, h 0 (by decide)]

/-- Different words have no byte in common. -/
theorem words_apart {p q : Word} (hp : bits p 0 2 = 0) (hq : bits q 0 2 = 0) (ne : q ≠ p) {i : Nat} (hi : i < 4) :
    p.toNat + i < q.toNat ∨ q.toNat + 4 ≤ p.toNat + i := by
  rw [low_zero_iff] at hp hq
  have : q.toNat ≠ p.toNat := fun e => ne (BitVec.eq_of_toNat_eq e)
  omega

/-- One word stored before the others. -/
theorem WordsStored.cons {left : Nat} {n : AbsReg} {phys : Nat → Word} {s t u : State}
    (aligned : ∀ k, k < left + 1 → bits (phys k) 0 2 = 0)
    (regs : ∀ k, k < left + 1 → hasStorage (multipleReg n k) = true)
    (first : Memory.word t.mem (phys 0).toNat = regAt s n) (outside : SameMemoryOutside (phys 0).toNat 4 s t)
    (same : SameRegisters s t) (h : WordsStored left (nextReg n) (fun k => phys (k + 1)) t u) :
    WordsStored (left + 1) n phys s u where
  last k hk later := by
    cases k with
    | zero =>
      refine (word_congr_bytes fun i hi => h.others _ fun j hj => ?_).trans first
      exact words_apart (aligned 0 hk) (aligned (j + 1) (Nat.succ_lt_succ hj))
        (later (j + 1) (Nat.succ_pos j) (Nat.succ_lt_succ hj)) hi
    | succ k =>
      rw [h.last k (Nat.lt_of_succ_lt_succ hk), multipleReg_next]
      · exact same.regs _ (regs _ hk)
      · exact fun j hkj hj => later (j + 1) (Nat.succ_lt_succ hkj) (Nat.succ_lt_succ hj)
  others x away :=
    (h.others x fun k hk => away (k + 1) (Nat.succ_lt_succ hk)).trans (outside x (away 0 (Nat.succ_pos _)))
  registers := same.trans h.registers

/-- By the same induction: each round stores one word, clear of the next instruction words (log 31). -/
theorem transfersLeft_stores {cntl : BitVec 8} {left : Nat} {n : AbsReg} {a : Word} {phys : Nat → Word} {s : State}
    (h : TransfersReady left n a phys s) (hw : Memory.wf s.mem = true)
    (clear : ∀ k, k < left → hitsNextWords s (phys k) = false) :
    ∃ u, transfersLeft false cntl .fresh left n a s = .next (finish (endMultiple u)) ∧ Accessed s u ∧
      WordsStored left n phys s u := by
  induction left generalizing n a phys s with
  | zero => exact ⟨s, rfl, rfl, nofun, fun _ _ => rfl, fun _ _ => rfl, rfl⟩
  | succ left ih =>
    obtain ⟨storage, isOpen, w, place⟩ := h.first
    have core := coreKept_recordTransfer false cntl left n a s
    have kept := accessed_recordTransfer false cntl left n a s
    generalize hr : recordTransfer false cntl left n a s.reserve = r at core kept
    have there : locate r a = .dram (phys 0) w := (locate_congr kept.sameDevices a).trans place
    have free : hitsNextWords r (phys 0) = false :=
      (hitsNextWords_congr kept.sameDevices kept.npc _).trans (clear 0 (Nat.succ_pos _))
    have moved := transfer_store (n := n) h.aligned there free
    have value : readReg 3 n r = regAt s n :=
      (readReg_congr 3 0 storage rfl rfl rfl).trans (core.registers.regs n storage)
    rw [value] at moved
    have aligned : unaligned 0 (phys 0) = false := by
      simp [unaligned, h.low_phys (Nat.succ_pos _)]
    obtain ⟨bytes, outside⟩ := storeAt_memory (v := regAt s n) core.mem rfl aligned hw
    have canonical : Memory.wf (r.storeAt 0 (phys 0) (regAt s n)).mem = true := by
      rw [storeAt_mem, core.mem]
      exact Memory.wf_putBytes hw _ _
    have step := kept.storeAt 0 (phys 0) (regAt s n)
    obtain ⟨u, run, ended, stored⟩ := ih (h.tail.kept step) canonical fun k hk =>
      (hitsNextWords_congr step.sameDevices step.npc _).trans (clear (k + 1) (Nat.succ_lt_succ hk))
    refine ⟨u, ?_, step.trans ended, stored.cons (fun k => h.low_phys) (fun k hk => (h.regs k hk).1)
      (word_of_holdsDatum bytes) outside (core.registers.trans (sameRegisters_storeAt ..))⟩
    subst hr
    exact (transfersLeft_round h.alone h.noDma isOpen h.noWarn h.noEvent moved).trans run

/-! ### The whole instruction (45 R339) -/

/-- The state that the sequence of a LOADM or STOREM starts from. -/
def State.sequenceStart (s : State) (sb : Bool) : State := ((s.enter.setBp sb).launch none).markMultiple

theorem accessed_sequenceStart (s : State) (sb : Bool) : Accessed (s.setBp sb) (s.sequenceStart sb) := rfl

theorem coreKept_sequenceStart (s : State) (sb : Bool) : CoreKept s (s.sequenceStart sb) := by
  refine ⟨sameRegisters_of_files ?_ ?_ ?_ ?_, ?_, ?_, ?_⟩ <;> simp [State.sequenceStart]

theorem sameDevices_sequenceStart (s : State) (sb : Bool) : SameDevices s (s.sequenceStart sb) :=
  (sameDevices_setBp s sb).trans (accessed_sequenceStart s sb).sameDevices

section

variable {cntl : BitVec 8} {ra : RegNum} {b : SrcB} {s : State} {n : AbsReg} {a : Word} {phys : Nat → Word}
  (h : MultipleReady cntl ra b s n a phys)

include h

theorem runMultiple_ready (load : Bool) : runMultiple load cntl ra b s =
    transfersLeft load cntl .fresh (s.cr.toNat + 1) n a (s.sequenceStart (cntlSb cntl)) := by
  obtain ⟨v, source, isOpen, value⟩ := h.address.resolved
  have first : isProtected s n = false := (h.regs 0 (Nat.zero_le _)).2
  simp only [runMultiple, operandsAB, h.number, source, Operands2.isProtected, first, isOpen, Bool.or_self, guarded_open,
    h.byHand, h.word, h.unfrozen, h.apart, Operands2.vb, value]
  rfl

/-- The sequence can run to its end. -/
theorem transfersReady : TransfersReady (s.cr.toNat + 1) n a phys (s.sequenceStart (cntlSb cntl)) := by
  have ready : TransfersReady (s.cr.toNat + 1) n a phys s := {
    alone := h.alone
    noDma := h.noDma
    noWarn := h.noWarn
    noEvent := h.noEvent
    aligned := h.aligned
    regs k hk := h.regs k (Nat.le_of_lt_succ hk)
    memory k hk := h.memory k (Nat.le_of_lt_succ hk) }
  have start := accessed_sequenceStart s (cntlSb cntl)
  obtain ⟨vab, rbp, tmc, tmr⟩ := start.sameControl
  exact ready.congr (sameDevices_sequenceStart s _) start.cps ⟨vab, rbp, tmc, tmr⟩

end

/-- The end of a multiple leaves CV = 0, and CR open (93 U4). -/
theorem finish_endMultiple_cv (u : State) : (finish (endMultiple u)).cv = false := by
  have chc : (endMultiple u).chc = putBits (putBit u.chc 0 false) 16 (bits (u.freeWord 5) 0 8 : BitVec 8) := rfl
  rw [State.cv, finish_chc, chc, bit, getLsbD_putBits _ _ _ _ (by decide) (by decide), if_neg (by decide)]
  exact bit_putBit_same _ _ _ (by decide)

theorem sameRegisters_ended (u : State) : SameRegisters u (finish (endMultiple u)) :=
  sameRegisters_of_files rfl rfl rfl rfl

/-- Settles O29. -/
theorem loadMultipleResult : Obligations.LoadMultipleResult := by
  intro cntl ra b s n a phys h
  have start := coreKept_sequenceStart s (cntlSb cntl)
  obtain ⟨u, run, kept, last, others, mem⟩ := transfersLeft_loads (cntl := cntl) (transfersReady h)
  have ended : Accessed (s.setBp (cntlSb cntl)) (endMultiple u) := ((accessed_sequenceStart s _).trans kept).trans rfl
  have same := sameRegisters_ended u
  refine ⟨_, (runMultiple_ready h true).trans run, fun k hk later => ?_, fun m hm away => ?_, finish_endMultiple_cv u,
    fun x => congrArg (Memory.get · x) (mem.trans start.mem), ended.accessStatus, ended.advances, ended.undisturbed⟩
  · have value := last k (Nat.lt_succ_of_le hk) fun j hkj hj => later j hkj (Nat.le_of_lt_succ hj)
    rw [same.regs _ (h.regs k hk).1, value, start.mem]
  · rw [same.regs m hm, others m hm fun k hk => away k (Nat.le_of_lt_succ hk), start.registers.regs m hm]

/-- Settles O30. -/
theorem storeMultipleResult : Obligations.StoreMultipleResult := by
  intro cntl ra b s n a phys h hw clear
  have start := coreKept_sequenceStart s (cntlSb cntl)
  have still (k : Nat) (hk : k < s.cr.toNat + 1) : hitsNextWords (s.sequenceStart (cntlSb cntl)) (phys k) = false :=
    (hitsNextWords_congr (sameDevices_sequenceStart s _) start.npc _).trans (clear k (Nat.le_of_lt_succ hk))
  obtain ⟨u, run, kept, last, others, registers⟩ :=
    transfersLeft_stores (cntl := cntl) (transfersReady h) (by rwa [start.mem]) still
  have ended : Accessed (s.setBp (cntlSb cntl)) (endMultiple u) := ((accessed_sequenceStart s _).trans kept).trans rfl
  refine ⟨_, (runMultiple_ready h false).trans run, fun k hk later => ?_, fun x away => ?_,
    (start.registers.trans registers).trans (sameRegisters_ended u), finish_endMultiple_cv u, ended.accessStatus,
    ended.advances, ended.undisturbed⟩
  · exact (last k (Nat.lt_succ_of_le hk) fun j hkj hj => later j hkj (Nat.le_of_lt_succ hj)).trans
      (start.registers.regs _ (h.regs k hk).1)
  · exact (others x fun k hk => away k (Nat.le_of_lt_succ hk)).trans (congrArg (Memory.get · x) start.mem)

end Sys2Proof.Machine
end

section
/-! PROOFS. The constant instructions of 46: each computes a word from the old value of its one register, and writes it there. -/

namespace Sys2Proof.Machine

/-! ### The words (46 R371, R372) -/

theorem zext_eq_zero_append (v : Half) : zext v = (0#16 ++ v : Word) := BitVec.setWidth_eq_append (by decide)

/-- A replaced upper half-word leaves the lower one. -/
theorem putBits_upperHalf (x : Word) (v : Half) : putBits x 16 v = v ++ x.extractLsb' 0 16 := insertHalf_eq x false v

/-! ### Result and frame (46 R371-R373) -/

theorem exec_const (ra : RegNum) (imm : Half) (s : State) :
    exec (.const ra imm) s = runConst (fun _ => zext imm) ra s := rfl

theorem exec_constn (ra : RegNum) (imm : Half) (s : State) :
    exec (.constn ra imm) s = runConst (fun _ => 0xFFFF#16 ++ imm) ra s := rfl

theorem exec_consth (ra : RegNum) (imm : Half) (s : State) :
    exec (.consth ra imm) s = runConst (fun x => putBits x 16 imm) ra s := rfl

section

variable {f : Word → Word} {ra : RegNum} {s : State} {n : AbsReg} {x : Word} (hw : WritesReg .A ra s n)
  (hx : ReadsA ra s x)

include hw hx

/-- RA is source and destination at once, so one number and one check serve both. -/
theorem runConst_ready : runConst f ra s = .next (finish (s.enter.putReg false n (f x))) := by
  obtain ⟨m, number, -, value⟩ := hx
  obtain rfl : n = m := Option.some.inj (hw.number.symm.trans number)
  simp only [runConst, number, hw.isOpen, guarded_open, value]
  exact writeFinish_storage hw.storage

/-- A constant instruction completes, and its word is the only thing written. -/
theorem completes_runConst {i : Instr} {v : Word} (run : exec i s = runConst f ra s) (word : f x = v) :
    ∃ t, exec i s = .next t ∧ OneRegister false n v s t ∧ SameStatus s t ∧ Advances s t ∧ Undisturbed s t := by
  subst word
  exact ⟨_, run.trans (runConst_ready hw hx), oneRegister_of_files hw.storage rfl rfl rfl rfl, ⟨rfl, rfl⟩,
    advances_finish rfl rfl, undisturbed_putReg s n _⟩

end

/-- Settles O24: CONST and CONSTN ignore the old value, CONSTH keeps its lower half. -/
theorem constantResult : Obligations.ConstantResult := by
  intro ra imm s n x hw hx
  simp only [List.forall_mem_cons, List.not_mem_nil, false_imp_iff, implies_true, and_true]
  exact ⟨completes_runConst hw hx (exec_const ra imm s) (zext_eq_zero_append imm),
    completes_runConst hw hx (exec_constn ra imm s) rfl,
    completes_runConst hw hx (exec_consth ra imm s) (putBits_upperHalf x imm)⟩

end Sys2Proof.Machine
end

section
/-! PROOFS. The jumps and calls of 48: the target as a number, what a branch leaves alone, and control after the delay
instruction for each of the nine. -/

namespace Sys2Proof.Machine

/-! ### The target (30 R172) -/

/-- An offset in words is four times as many bytes; the sign of a relative one is kept. -/
theorem jumpTarget_eq_jumpTo (abs : Bool) (disp : BitVec 16) (pc : Word) :
    jumpTarget abs disp pc = jumpTo abs disp pc := by
  cases abs with
  | true =>
    refine BitVec.eq_of_toNat_eq ?_
    simp [jumpTarget, jumpTo, zext, Nat.shiftLeft_eq, Nat.mul_comm]
  | false =>
    have offset : sext disp <<< 2 = BitVec.ofInt 32 (4 * disp.toInt) :=
      calc sext disp <<< 2 = BitVec.twoPow 32 2 * sext disp := by rw [BitVec.shiftLeft_eq_mul_twoPow, BitVec.mul_comm]
        _ = BitVec.ofInt 32 4 * BitVec.ofInt 32 disp.toInt := rfl
        _ = BitVec.ofInt 32 (4 * disp.toInt) := (BitVec.ofInt_mul ..).symm
    exact congrArg (pc + ·) offset

/-! ### A branch taken or not (48 R420, R421) -/

theorem branchTo_eq_finishTo (taken : Bool) (target : Word) (s : State) :
    branchTo taken target s = finishTo (if taken then target else s.npc + 4) s := by
  cases taken <;> rfl

/-- The frame of a completion does not mention npc, so it is that of a branch as well. -/
theorem Undisturbed.redirect {s t : State} (h : Undisturbed s (Machine.finish t)) (next : Word) :
    Undisturbed s (Machine.finishTo next t) := by
  obtain ⟨memory, ⟨ops, pc0, pc1, pc2⟩, ⟨cha, chd, chc⟩, ⟨vab, rbp, tmc, tmr⟩, ⟨ipa, ipb, ipc⟩, devices⟩ := h
  exact ⟨memory, ⟨ops, pc0, pc1, pc2⟩, ⟨cha, chd, chc⟩, ⟨vab, rbp, tmc, tmr⟩, ⟨ipa, ipb, ipc⟩, { devices with }⟩

section

variable {i : Instr} {s : State} {taken : Bool} {target next : Word}

/-- A branch without a register result: only control changes. -/
theorem completes_branch (run : exec i s = .next (branchTo taken target s.enter))
    (follows : (if taken then target else s.npc + 4) = next) :
    ∃ t, exec i s = .next t ∧ ContinuesTo next s t ∧ SameRegisters s t ∧ SameStatus s t ∧ Undisturbed s t := by
  subst follows
  rw [branchTo_eq_finishTo] at run
  exact ⟨_, run, continuesTo_finishTo _ rfl rfl, sameRegisters_of_files rfl rfl rfl rfl, ⟨rfl, rfl⟩,
    (writesNothing_enter s).finish.frame.redirect _⟩

/-- A branch that writes one register on its way. -/
theorem completes_writeBranch {n : AbsReg} {v : Word} (storage : hasStorage n = true)
    (run : exec i s = writeBranch n v taken target s.enter)
    (follows : (if taken then target else s.npc + 4) = next) :
    ∃ t, exec i s = .next t ∧ OneRegister false n v s t ∧ ContinuesTo next s t ∧ SameStatus s t ∧ Undisturbed s t := by
  subst follows
  rw [writeBranch, writeThen_storage storage, branchTo_eq_finishTo] at run
  exact ⟨_, run, oneRegister_of_files storage rfl rfl rfl rfl, continuesTo_finishTo _ rfl rfl, ⟨rfl, rfl⟩,
    (undisturbed_putReg s n v).redirect _⟩

end

/-! ### Jumps (48 R425-R430) -/

section

variable {sense abs : Bool} {ra rb : RegNum} {disp : BitVec 16} {s : State} {x v : Word}

theorem exec_jmpi_ready (hv : ReadsReg .B rb 4 s v) :
    exec (.jmpi rb) s = .next (branchTo true (wordAligned v) s.enter) := by
  obtain ⟨n, number, isOpen, rfl⟩ := hv
  simp only [exec, execJmpi, number, isOpen, guarded_open]

theorem runJumpIf_ready (hx : ReadsA ra s x) :
    runJumpIf sense abs ra disp s =
      .next (branchTo (bit x 31 == sense) (jumpTarget abs disp s.pc) s.enter) := by
  obtain ⟨n, number, isOpen, rfl⟩ := hx
  simp only [runJumpIf, number, isOpen, guarded_open]

theorem runJumpIfReg_ready (hx : ReadsA ra s x) (hv : ReadsReg .B rb 4 s v) :
    runJumpIfReg sense ra rb s = .next (branchTo (bit x 31 == sense) (wordAligned v) s.enter) := by
  obtain ⟨a, numberA, openA, rfl⟩ := hx
  obtain ⟨b, numberB, openB, rfl⟩ := hv
  simp only [runJumpIfReg, numberA, numberB, openA, openB, Bool.or_self, guarded_open]

end

/-- The jumps of the JA format differ in the truth value they test for. -/
theorem conditionalJumps_run : ∀ p ∈ [(Instr.jmpt, true), (Instr.jmpf, false)], ∀ abs ra disp s,
    exec (p.1 abs ra disp) s = runJumpIf p.2 abs ra disp s := by
  simp only [List.forall_mem_cons, List.not_mem_nil, false_imp_iff, implies_true, and_true]
  exact ⟨fun _ _ _ _ => rfl, fun _ _ _ _ => rfl⟩

/-- So do those through a register. -/
theorem conditionalJumpsReg_run : ∀ p ∈ [(Instr.jmpti, true), (Instr.jmpfi, false)], ∀ ra rb s,
    exec (p.1 ra rb) s = runJumpIfReg p.2 ra rb s := by
  simp only [List.forall_mem_cons, List.not_mem_nil, false_imp_iff, implies_true, and_true]
  exact ⟨fun _ _ _ => rfl, fun _ _ _ => rfl⟩

/-- Settles O39. -/
theorem jumpResult : Obligations.JumpResult := by
  intro s
  simp only [← jumpTarget_eq_jumpTo]
  refine ⟨?direct, ?indirect, ?conditional⟩
  case direct => exact fun abs disp => completes_branch (i := .jmp abs disp) (taken := true) rfl rfl
  case indirect => exact fun rb v hv => completes_branch (exec_jmpi_ready hv) rfl
  case conditional =>
    intro ra x hx
    constructor
    · exact fun p hp abs disp => completes_branch ((conditionalJumps_run p hp abs ra disp s).trans (runJumpIf_ready hx))
        (if_congr beq_iff_eq rfl rfl)
    · exact fun p hp rb v hv => completes_branch
        ((conditionalJumpsReg_run p hp ra rb s).trans (runJumpIfReg_ready hx hv)) (if_congr beq_iff_eq rfl rfl)

/-! ### Calls and JMPFDEC (48 R423, R424, R431) -/

section

variable {abs : Bool} {ra rb : RegNum} {disp : BitVec 16} {s : State} {n : AbsReg} {x v : Word}
  (hw : WritesReg .A ra s n)

include hw

theorem exec_call_ready :
    exec (.call abs ra disp) s = writeBranch n (s.pc + 8) true (jumpTarget abs disp s.pc) s.enter := by
  simp only [exec, execCall, hw.number, hw.isOpen, guarded_open]

/-- RB is read in the state before the link is written, also where RA and RB name one register. -/
theorem exec_calli_ready (hv : ReadsReg .B rb 4 s v) :
    exec (.calli ra rb) s = writeBranch n (s.pc + 8) true (wordAligned v) s.enter := by
  obtain ⟨b, number, isOpen, rfl⟩ := hv
  simp only [exec, execCalli, hw.number, hw.isOpen, number, isOpen, Bool.or_self, guarded_open]

/-- The test and the decrement both use the old value. -/
theorem exec_jmpfdec_ready (hx : ReadsA ra s x) :
    exec (.jmpfdec abs ra disp) s = writeBranch n (x - 1) (!bit x 31) (jumpTarget abs disp s.pc) s.enter := by
  obtain ⟨m, number, -, rfl⟩ := hx
  obtain rfl : n = m := Option.some.inj (hw.number.symm.trans number)
  simp only [exec, execJmpfdec, hw.number, hw.isOpen, guarded_open]

end

/-- Settles O40. -/
theorem callResult : Obligations.CallResult := by
  intro ra s n hw
  constructor
  · exact fun abs disp => completes_writeBranch hw.storage (exec_call_ready hw) (jumpTarget_eq_jumpTo abs disp s.pc)
  · exact fun rb v hv => completes_writeBranch hw.storage (exec_calli_ready hw hv) rfl

/-- Settles O41: FALSE is bit 31 clear, and the statement puts the case of TRUE first. -/
theorem jumpDecrementResult : Obligations.JumpDecrementResult := by
  intro abs ra disp s n x hw hx
  refine completes_writeBranch hw.storage (exec_jmpfdec_ready hw hx) ?_
  rw [jumpTarget_eq_jumpTo]
  cases bit x 31 <;> rfl

end Sys2Proof.Machine
end

section
/-! PROOFS. The miscellaneous instructions of 49 other than the returns: the count of CLZ, the indirect pointers of SETIP and
EMULATE, the privilege check, and HALT. -/

namespace Sys2Proof.Machine

/-! ### CLZ (49 R441) -/

/-- The count among the first n bits is pinned by the two powers of two that the word lies between. -/
theorem leadingZeros_bounds {n : Nat} (hn : n ≤ 32) (x : Word) :
    leadingZeros n x ≤ n ∧ x.toNat < 2 ^ (32 - leadingZeros n x) ∧
      (leadingZeros n x < n → 2 ^ (31 - leadingZeros n x) ≤ x.toNat) := by
  induction n generalizing x with
  | zero => exact ⟨Nat.le_refl 0, x.isLt, nofun⟩
  | succ n ih =>
    have top : bit x 31 = decide (2 ^ 31 ≤ x.toNat) := BitVec.msb_eq_decide x
    rw [leadingZeros, top]
    by_cases high : 2 ^ 31 ≤ x.toNat
    · rw [decide_eq_true high, if_pos rfl]
      exact ⟨Nat.zero_le _, x.isLt, fun _ => high⟩
    · rw [decide_eq_false high, if_neg Bool.false_ne_true]
      have double : (x <<< 1).toNat = 2 * x.toNat := by
        rw [BitVec.toNat_shiftLeft, Nat.shiftLeft_eq]
        omega
      obtain ⟨le, below, above⟩ := ih (by omega) (x <<< 1)
      rw [double] at below above
      generalize leadingZeros n (x <<< 1) = k at le below above
      refine ⟨by omega, ?_, fun hk => ?_⟩
      · have half : 2 ^ (32 - k) = 2 ^ (32 - (k + 1)) * 2 := by rw [← Nat.pow_succ]; congr 1; omega
        omega
      · have half : 2 ^ (31 - k) = 2 ^ (31 - (k + 1)) * 2 := by rw [← Nat.pow_succ]; congr 1; omega
        have := above (by omega)
        omega

theorem exec_clz_ready {rc : RegNum} {b : SrcB} {s : State} {c : AbsReg} {y : Word} (hc : WritesReg .C rc s c)
    (hb : ReadsB b s y) :
    exec (.clz rc b) s = .next (finish (s.enter.putReg false c (BitVec.ofNat 32 (leadingZeros 32 y)))) :=
  (withRM_ready hc hb fun c y t => writeFinish false c (BitVec.ofNat 32 (leadingZeros 32 y)) t).trans
    (writeFinish_storage hc.storage)

/-- Settles O23. -/
theorem countLeadingZerosResult : Obligations.CountLeadingZerosResult := by
  intro rc b s c y hc hb
  obtain ⟨le, below, above⟩ := leadingZeros_bounds (Nat.le_refl 32) y
  exact ⟨_, _, exec_clz_ready hc hb, le, below, above, oneRegister_of_files hc.storage rfl rfl rfl rfl, ⟨rfl, rfl⟩,
    advances_finish rfl rfl, undisturbed_putReg s c _⟩

/-! ### SETIP (49 R442) -/

/-- Settles O37: the numbers are checked and go to the pointers. -/
theorem setIndirectPointersResult : Obligations.SetIndirectPointersResult := by
  intro rc ra rb s c a b h
  obtain ⟨numbers, allowed⟩ := resolveNumbers_ready h
  have run : exec (.setip rc ra rb) s = .next (finish (s.enter.setPointers ⟨c, a, b⟩)) := by
    show execSetip rc ra rb s = _
    simp only [execSetip, numbers, allowed, guarded_open]
  have kept := dataKept_setPointers ⟨c, a, b⟩ s
  exact ⟨_, run, rfl, rfl, rfl, kept.registers, kept.status, ⟨rfl, rfl, rfl, rfl⟩, advances_finish rfl rfl,
    trapUndisturbed_setPointers _ s⟩

/-! ### EMULATE (49 R443) -/

section

variable {vn : VecNum} {ra rb : RegNum} {s : State} {a b : AbsReg} (ha : resolve .A ra s = some a)
  (hb : resolve .B rb s = some b) (oa : isProtected s a = false) (ob : isProtected s b = false)

include ha hb oa ob

/-- With open operands the reserved vectors are all that the check is about (60 R460). -/
theorem exec_emulate_open : exec (.emulate vn ra rb) s =
    guarded (reservedVector s vn) s (trapNext vn (s.enter.setEmulatePointers a b)) := by
  show execEmulate vn ra rb s = _
  simp only [execEmulate, ha, hb, oa, ob, Bool.false_or]

theorem exec_emulate_allowed (h : ¬(s.sm = false ∧ vn.toNat < 64)) :
    exec (.emulate vn ra rb) s = trapNext vn (s.enter.setEmulatePointers a b) := by
  have allowed : reservedVector s vn = false := by rwa [← Bool.not_eq_true, reservedVector_iff]
  rw [exec_emulate_open ha hb oa ob, allowed, guarded_open]

theorem exec_emulate_reserved (h : s.sm = false ∧ vn.toNat < 64) :
    exec (.emulate vn ra rb) s = trapCurr vProtection s := by
  rw [exec_emulate_open ha hb oa ob, reservedVector_iff.mpr h, guarded_closed]

end

/-- Settles O38: IPC takes an open number (93 U20), the two other pointers are set as SETIP sets them. -/
theorem emulateTraps : Obligations.EmulateTraps := by
  intro vn ra rb s a b ha hb oa ob reserved
  have pointers : ∃ c, s.enter.setEmulatePointers a b = s.enter.setPointers ⟨c, a, b⟩ := ⟨_, rfl⟩
  obtain ⟨c, set⟩ := pointers
  have kept := dataKept_setPointers ⟨c, a, b⟩ s
  have frame := trapUndisturbed_setPointers ⟨c, a, b⟩ s
  refine ⟨fun allowed hc => ?taken, fun allowed hd => ?disabled, fun hr hc => ?violation⟩
  case taken =>
    have same : SameDevices s (s.enter.setPointers ⟨c, a, b⟩) := by constructor <;> simp
    obtain ⟨e, entry, trapped⟩ := trapNext_entry hc same rfl rfl rfl rfl rfl rfl ⟨rfl, rfl, rfl, rfl⟩
    have run := (exec_emulate_allowed ha hb oa ob allowed).trans ((congrArg _ set).trans entry)
    have keptByEntry := kept.trans (dataKept_entry e _)
    exact ⟨_, run, trapped, rfl, rfl, keptByEntry.registers, keptByEntry.status, frame.entry e⟩
  case disabled =>
    have run := (exec_emulate_allowed ha hb oa ob allowed).trans ((congrArg _ set).trans (trapNext_disabled hd))
    exact ⟨_, run, advances_finish rfl rfl, rfl, rfl, kept.registers, kept.status, ⟨rfl, rfl, rfl, rfl⟩, frame⟩
  case violation =>
    obtain ⟨t, run, trapped, registers, status, same, undisturbed⟩ := protectionViolation_taken hc
    exact ⟨t, (exec_emulate_reserved ha hb oa ob hr).trans run, trapped, same, registers, status, undisturbed⟩

/-! ### Privileged instructions (60 R460, R476) -/

/-- Each of them checks the mode before it does anything. -/
theorem exec_privileged {i : Instr} {s : State} (h : isPrivilegedNop i ∨ i = .iret ∨ i = .iretinv ∨
    (i = .halt ∧ s.dbg.haltUnprotected = false)) (hu : s.sm = false) : exec i s = trapCurr vProtection s := by
  rcases h with nop | rfl | rfl | ⟨rfl, protection⟩
  · rw [privilegedNop_run nop, runPrivilegedNop, hu]
    rfl
  · show execIret s = _
    rw [execIret, hu]
    rfl
  · show execIretinv s = _
    rw [execIretinv, hu]
    rfl
  · show execHalt s = _
    rw [execHalt, hu, protection]
    rfl

/-- Settles O43. -/
theorem privilegedInUserTraps : Obligations.PrivilegedInUserTraps := by
  intro i s hi hu hc
  rw [exec_privileged hi hu]
  exact protectionViolation_taken hc

/-! ### HALT (49 R449) -/

theorem exec_halt_allowed {s : State} (h : s.sm = true ∨ s.dbg.haltUnprotected = true) :
    exec .halt s = .next (haltOrTrap (finish s.enter)) := by
  have unchecked : (!s.sm && !s.dbg.haltUnprotected) = false := by rcases h with h | h <;> simp [h]
  show execHalt s = _
  rw [execHalt, unchecked, guarded_open]

/-- No trap comes first while DA = 1. -/
theorem trapBeforeHalt_disabled {s : State} (h : s.da = true) : trapBeforeHalt s = false := by simp [trapBeforeHalt, h]

/-- A core in Halt mode does nothing until another agent acts (60 R461). -/
theorem step_halted {s : State} (h : CoreAlone s) (hw : s.warnLatch = false) (hm : s.mode = .halt) : step s = .next s := by
  have still : coreStep s = .next s := by simp [coreStep, hm, hw, h.noMultiple]
  rw [step, h.schedule]
  simp only [h.noDma, Bool.false_eq_true, if_false]
  rw [coreTurn, still]
  exact applyPending_none h.noCntl

/-- Settles O46. -/
theorem haltEntersHaltMode : Obligations.HaltEntersHaltMode := by
  intro s allowed quiet
  have noTrap : trapBeforeHalt (finish s.enter) = false := by
    rcases quiet with disabled | none
    · exact trapBeforeHalt_disabled ((bit_traceCopy_ne _ _ (by decide)).trans disabled)
    · exact none
  have run : exec .halt s = .next { finish s.enter with mode := .halt } := by
    rw [exec_halt_allowed allowed, haltOrTrap, noTrap]
    rfl
  refine ⟨_, run, rfl, sameRegisters_of_files rfl rfl rfl rfl, ⟨rfl, rfl⟩, ⟨rfl, rfl, rfl⟩, fun _ => rfl,
    ⟨rfl, rfl, rfl, rfl⟩, ⟨rfl, rfl, rfl⟩, ⟨rfl, rfl, rfl, rfl⟩, ⟨rfl, rfl, rfl⟩, fun alone hw => ?_⟩
  exact step_halted ⟨alone.schedule, alone.noDma, alone.noCntl, alone.noMultiple⟩ hw rfl

end Sys2Proof.Machine
end

section
/-! PROOFS. The interrupt return of 49: with no access to restart, with a single access that is made in the step of the
return, and with the rest of a multiple, whose first transfer is that of the channel registers. -/

namespace Sys2Proof.Machine

/-! ### The return itself (49 R447) -/

/-- IRETINV is IRET. -/
theorem returns_run : ∀ i ∈ [Instr.iret, Instr.iretinv], ∀ s, s.sm = true → exec i s = interruptReturn s := by
  simp only [List.forall_mem_cons, List.not_mem_nil, false_imp_iff, implies_true, and_true]
  constructor <;> intro s hs
  · show execIret s = _
    rw [execIret, hs]
    rfl
  · show execIretinv s = _
    rw [execIretinv, hs]
    rfl

/-- What PC0-PC2 hold is open while they follow the pipeline, and nothing else is. -/
theorem openPcs_settled {s : State} (h : s.fzSettle = 0) : s.openPcs = s.floatPcs := by
  rw [State.openPcs, settling_of_zero h]
  rfl

/-- A return that finds no access to restart only restores the context. -/
theorem interruptReturn_plain {s : State} (hf : s.fzSettle = 0) (h : s.cv = false ∨ s.nn = true) :
    interruptReturn s = .next (restoreContext s.floatPcs).reserve := by
  have cv : (restoreContext s.floatPcs).reserve.cv = s.cv := rfl
  have nn : (restoreContext s.floatPcs).reserve.nn = s.nn := rfl
  have nothing : (s.cv && !s.nn) = false := by rcases h with h | h <;> simp [h]
  unfold interruptReturn
  simp only [openPcs_settled hf, cv, nn, nothing, Bool.false_eq_true, if_false]

/-- Settles O44. -/
theorem interruptReturnResult : Obligations.InterruptReturnResult := by
  intro i hi s hs hf h
  have run := (returns_run i hi s hs).trans (interruptReturn_plain hf h)
  refine ⟨_, run, rfl, low_wordAligned _, low_wordAligned _, fun frozen => ?_, rfl, sameRegisters_of_files rfl rfl rfl rfl,
    ⟨rfl, rfl⟩, ⟨rfl, rfl, rfl⟩, fun _ => rfl, ⟨rfl, rfl, rfl⟩, ⟨rfl, rfl, rfl, rfl⟩, by constructor <;> simp⟩
  have same : s.floatPcs = s := (openPcs_settled hf).symm.trans (openPcs_frozen frozen hf)
  rw [same]
  exact ⟨rfl, rfl, rfl, rfl, rfl, rfl⟩

/-! ### A return with an access to restart (49 R447) -/

theorem interruptReturn_restarts {s : State} (h : Restartable s) : interruptReturn s =
    if s.ml then resumeMultiple (restoreContext s).reserve else restartAccess (restoreContext s).reserve := by
  have cv : (restoreContext s).reserve.cv = true := h.valid
  have nn : (restoreContext s).reserve.nn = false := h.needed
  have ml : (restoreContext s).reserve.ml = s.ml := rfl
  unfold interruptReturn
  simp only [openPcs_frozen h.frozen h.settled, cv, nn, ml, Bool.not_false, Bool.and_self, if_true]

/-- The return opens no more than accesses may change. -/
theorem accessed_reserve (s : State) : Accessed s s.reserve := rfl

theorem Accessed.reserve {s t : State} (h : Accessed s t) : Accessed s t.reserve := h.trans rfl

theorem Accessed.setCv {s t : State} (h : Accessed s t) (b : Bool) : Accessed s (t.setCv b) := h.trans rfl

theorem sameDevices_restoreContext (s : State) : SameDevices s (restoreContext s) := by constructor <;> simp

/-- Accesses after the context is restored leave the return as it was. -/
theorem Accessed.returned {s t : State} (h : Accessed (restoreContext s) t) : Returned s t where
  pc := h.pc
  npc := h.npc
  cps := h.cps
  status := ⟨h.sameStatus.alu, h.sameStatus.q⟩
  undisturbed := by
    obtain ⟨ops, pc0, pc1, pc2⟩ := h.sameSaved
    obtain ⟨vab, rbp, tmc, tmr⟩ := h.sameControl
    obtain ⟨ipa, ipb, ipc⟩ := h.samePointers
    exact ⟨⟨ops, pc0, pc1, pc2⟩, ⟨vab, rbp, tmc, tmr⟩, ⟨ipa, ipb, ipc⟩,
      (sameDevices_restoreContext s).trans h.sameDevices⟩

/-! ### The channel registers of a restarted access (10 R41) -/

theorem cntlOpt_field (w : Word) : cntlOpt (bits w 24 8) = bits w 24 3 := by
  apply BitVec.eq_of_getLsbD_eq
  intro i hi
  simp [cntlOpt, bits, hi, show i < 8 by omega]

theorem cntlSb_field (w : Word) : cntlSb (bits w 24 8) = bit w 28 := by simp [cntlSb, bits, bit]

/-- The restored FZ. -/
theorem restored_fz (s : State) : (restoreContext s).fz = bit s.ops 10 := by
  simp [State.fz, bit, cpsMask]

/-- Contents Valid is the last bit of CHC. -/
theorem putBit_zero_or_one (w : Word) (b : Bool) : putBit w 0 b ||| 1 = w ||| 1 := by
  apply BitVec.eq_of_getLsbD_eq
  intro i hi
  rw [BitVec.getLsbD_or, BitVec.getLsbD_or, getLsbD_putBit _ 0 i _ (by decide)]
  cases i <;> simp

/-- The end of a single access: `u` is the state in which it was made. -/
theorem Accessed.restarted {s u : State} (h : Accessed (restoreContext s) u) (hv : s.cv = true) (cha : u.cha = s.cha)
    (chd : u.chd = s.chd) (chc : u.chc = s.chc) (f : Option Flight) :
    Restarted s ((u.setCv false).launch f).reserve := by
  have frozen : u.fz = bit s.ops 10 := by rw [State.fz, h.cps, ← restored_fz]; rfl
  have record : ((u.setCv false).launch f).reserve.chc = if bit s.ops 10 then s.chc else putBit s.chc 0 false := by
    rw [← frozen, ← chc]
    rfl
  refine ⟨((h.setCv false).launch f).reserve.returned, ?_, ?_, cha, chd⟩
  · rw [State.cv, record]
    split
    · next frozen => exact hv.trans frozen.symm
    · next thawed => exact (bit_putBit_same _ 0 _ (by decide)).trans (Bool.eq_false_of_not_eq_true thawed).symm
  · rw [record]
    split
    · rfl
    · exact putBit_zero_or_one _ _

/-! ### Stores of a word as it is driven (20 R106) -/

/-- A store of an aligned datum to DRAM, clear of the instruction words at `ahead`, puts the driven word's lanes there. -/
theorem memStore_dram {s : State} {opt : BitVec 3} {a v p : Word} {w : Nat} {ahead : List Word}
    (h : optDefined opt = true) (hu : unaligned opt a = false) (hp : locate s a = .dram p w)
    (hn : hitsWords s ahead p = false) :
    memStore s ⟨opt, a, v, ahead⟩ = .done (s.storeAt opt p (selectData opt false p v)) := by
  have h6 : opt ≠ 6#3 := by rintro rfl; cases h
  have ht : accessTrap s opt a = none := by simp [accessTrap, hp, hu]
  simp only [memStore, show ¬ opt = 6 from h6, h, ht, storeTo, hp, dramWord_aligned hu hp, storeMem, hn, if_false,
    Bool.not_true, Bool.false_eq_true]

/-- All ones have the low byte or half-word in every position. -/
theorem storeAt_ones (s : State) (opt : BitVec 3) (p : Word) :
    s.storeAt opt p (selectData opt false p 0xFFFFFFFF) = s.storeAt opt p 0xFFFFFFFF := by
  have driven : replicateData opt 0xFFFFFFFF = 0xFFFFFFFF := by revert opt; decide
  rw [← storeAt_driven s opt p 0xFFFFFFFF, driven]

/-- The two low bits of an address. -/
theorem toNat_low (p : Word) : (bits p 0 2).toNat = p.toNat % 4 := by simp [bits]

/-- A byte alone in a word is its last byte. -/
theorem byteOfWord_zext_byte (b : Byte) : byteOfWord (zext b) 3 = b := by
  apply BitVec.eq_of_getLsbD_eq
  intro i hi
  simp [byteOfWord, zext, hi, show i < 32 by omega]

/-- A half-word alone in a word is its last two bytes. -/
theorem byteOfWord_zext_half (x : Half) :
    byteOfWord (zext x) 2 = x.extractLsb' 8 8 ∧ byteOfWord (zext x) 3 = x.extractLsb' 0 8 := by
  constructor <;> apply BitVec.eq_of_getLsbD_eq <;> intro i hi <;>
    simp [byteOfWord, zext, hi, show 8 + i < 32 by omega, show i < 32 by omega]

theorem byte_of_bits (w : Word) {n lo k : Nat} (h : k + 8 ≤ n) :
    (bits w lo n).extractLsb' k 8 = w.extractLsb' (lo + k) 8 := by
  apply BitVec.eq_of_getLsbD_eq
  intro i hi
  simp [bits, hi, show k + i < n by omega, Nat.add_assoc]

/-- The bytes stored from a driven word are those of its lanes. -/
theorem byteOfWord_selectData {opt : BitVec 3} {p v : Word} (h : optDefined opt = true) (hu : unaligned opt p = false)
    {j : Nat} (hj : j < optBytes opt) :
    byteOfWord (selectData opt false p v) (4 - optBytes opt + j) = byteOfWord v ((p.toNat + j) % 4) := by
  rcases optDefined_cases h with rfl | rfl | rfl
  · have low : p.toNat % 4 = 0 := by
      rw [← low_zero_iff]
      simp only [unaligned] at hu
      simpa using hu
    have inWord : j < 4 := hj
    have lane : (p.toNat + j) % 4 = j := by omega
    rw [lane]
    show byteOfWord v (0 + j) = _
    rw [Nat.zero_add]
  · obtain rfl : j = 0 := Nat.lt_one_iff.mp hj
    have lane : (p.toNat + 0) % 4 = (bits p 0 2).toNat := (toNat_low p).symm
    rw [lane]
    exact byteOfWord_zext_byte _
  · have digit (k : Nat) : bit p k = decide (p.toNat / 2 ^ k % 2 = 1) := Nat.testBit_eq_decide_div_mod_eq
    have even : p.toNat % 2 = 0 := by
      have b0 : bit p 0 = false := by simpa [unaligned] using hu
      rw [digit, decide_eq_false_iff_not] at b0
      omega
    have bytes : j = 0 ∨ j = 1 := by simp [optBytes] at hj; omega
    obtain ⟨first, second⟩ := byteOfWord_zext_half (if bit p 1 then bits v 0 16 else bits v 16 16)
    have select : selectData 2 false p v = zext (if bit p 1 then bits v 0 16 else bits v 16 16) := rfl
    rw [select]
    cases hb : bit p 1 <;> rw [hb] at first second
    · have low : p.toNat % 4 = 0 := by
        rw [digit, decide_eq_false_iff_not] at hb
        omega
      rw [Nat.add_mod, low]
      rcases bytes with rfl | rfl
      · exact first.trans (byte_of_bits v (by decide))
      · exact second.trans (byte_of_bits v (by decide))
    · have low : p.toNat % 4 = 2 := by
        rw [digit, decide_eq_true_eq] at hb
        omega
      rw [Nat.add_mod, low]
      rcases bytes with rfl | rfl
      · exact first.trans (byte_of_bits v (by decide))
      · exact second.trans (byte_of_bits v (by decide))

/-! ### A single access (49 R447) -/

section

variable {t : State} {p : Word} {w : Nat} (width : optDefined (bits t.chc 24 3) = true)
  (aligned : unaligned (bits t.chc 24 3) t.cha = false)

include width aligned

theorem restartAccess_load (load : bit t.chc 15 = true) (notSet : bit t.chc 13 = false) (hp : physical t t.cha = some p)
    (hn : hasStorage (bits t.chc 2 8) = true) :
    ∃ f, restartAccess t = .next (((t.putReg false (bits t.chc 2 8)
      (memoryDatum (bits t.chc 24 3) (bit t.chc 28) t.mem p.toNat)).setCv false).launch f).reserve := by
  unfold restartAccess
  simp only [cntlOpt_field, cntlSb_field, load, notSet, if_true, Bool.false_eq_true, if_false,
    memRead_physical (sb := bit t.chc 28) width aligned hp, Access.restart, restartWrite, writeReg_of_storage hn]
  exact ⟨_, rfl⟩

theorem restartAccess_store (store : bit t.chc 15 = false) (hp : locate t t.cha = .dram p w)
    (clear : hitsWords t t.wordsAfterReturn p = false) :
    ∃ f, restartAccess t = .next (((t.storeAt (bits t.chc 24 3) p
      (selectData (bits t.chc 24 3) false p t.chd)).setCv false).launch f).reserve := by
  unfold restartAccess
  simp only [cntlOpt_field, store, Bool.false_eq_true, if_false, memStore_dram width aligned hp clear, Access.restart]
  exact ⟨_, rfl⟩

theorem restartAccess_loadSet (load : bit t.chc 15 = true) (set : bit t.chc 13 = true) (hp : locate t t.cha = .dram p w)
    (clear : hitsWords t t.wordsAfterReturn p = false) (hn : hasStorage (bits t.chc 2 8) = true) :
    ∃ f, restartAccess t = .next ((((t.storeAt (bits t.chc 24 3) p 0xFFFFFFFF).putReg false (bits t.chc 2 8)
      (memoryDatum (bits t.chc 24 3) (bit t.chc 28) t.mem p.toNat)).setCv false).launch f).reserve := by
  have there : physical t t.cha = some p := by rw [physical, hp]
  unfold restartAccess
  simp only [cntlOpt_field, cntlSb_field, load, set, if_true,
    memRead_physical (sb := bit t.chc 28) width aligned there, memStore_dram width aligned hp clear, storeAt_ones,
    Access.restart, restartWrite, writeReg_of_storage hn]
  exact ⟨_, rfl⟩

end

/-- Where an access goes after the return is where it went before (20 R103). -/
theorem locate_returned (s : State) (a : Word) : locate (restoreContext s).reserve a = locate s a :=
  locate_congr (sameDevices_restoreContext s) a

theorem physical_returned (s : State) (a : Word) : physical (restoreContext s).reserve a = physical s a :=
  physical_congr (sameDevices_restoreContext s) a

/-- The words that a restarted store may not change are those after the return (log 31). -/
theorem hitsWords_returned (s : State) (p : Word) :
    hitsWords (restoreContext s).reserve (restoreContext s).reserve.wordsAfterReturn p =
      hitsWords s (restoreContext s).wordsAfterReturn p :=
  hitsWords_congr (sameDevices_restoreContext s) _ p

section

variable {i : Instr} (hi : i ∈ [Instr.iret, Instr.iretinv]) {s : State} (h : Restartable s)

include hi h

/-- A return with a single access to restart makes it in the restored context. -/
theorem exec_return_single (hs : RestartsSingle s) : exec i s = restartAccess (restoreContext s).reserve := by
  rw [returns_run i hi s h.supervisor, interruptReturn_restarts h, if_neg (by simp [hs.single])]

theorem return_restartsLoad {p : Word} (hs : RestartsSingle s) (load : bit s.chc 15 = true)
    (notSet : bit s.chc 13 = false) (hp : physical s s.cha = some p) (hn : hasStorage (bits s.chc 2 8) = true) :
    ∃ t, exec i s = .next t ∧ Restarted s t ∧ SameMemory s t ∧
      OneRegister false (bits s.chc 2 8) (memoryDatum (bits s.chc 24 3) (bit s.chc 28) s.mem p.toNat) s t := by
  obtain ⟨f, run⟩ := restartAccess_load (t := (restoreContext s).reserve) hs.width hs.aligned load notSet
    ((physical_returned s _).trans hp) hn
  have kept := (accessed_reserve (restoreContext s)).putReg false (bits s.chc 2 8)
    (memoryDatum (bits s.chc 24 3) (bit s.chc 28) s.mem p.toNat)
  exact ⟨_, (exec_return_single hi h hs).trans run, kept.restarted h.valid rfl rfl rfl f, fun _ => rfl,
    oneRegister_of_files hn rfl rfl rfl rfl⟩

theorem return_restartsLoadSet {p : Word} {w : Nat} (hs : RestartsSingle s) (load : bit s.chc 15 = true)
    (set : bit s.chc 13 = true) (hp : RestartsStore s p w) (hn : hasStorage (bits s.chc 2 8) = true) :
    ∃ t, exec i s = .next t ∧ Restarted s t ∧ HoldsDatum (bits s.chc 24 3) t.mem p.toNat 0xFFFFFFFF ∧
      SameMemoryOutside p.toNat (optBytes (bits s.chc 24 3)) s t ∧
      OneRegister false (bits s.chc 2 8) (memoryDatum (bits s.chc 24 3) (bit s.chc 28) s.mem p.toNat) s t := by
  obtain ⟨f, run⟩ := restartAccess_loadSet (t := (restoreContext s).reserve) hs.width hs.aligned load set
    ((locate_returned s _).trans hp.place) ((hitsWords_returned s p).trans hp.clear) hn
  have kept := ((accessed_reserve (restoreContext s)).storeAt (bits s.chc 24 3) p 0xFFFFFFFF).putReg false
    (bits s.chc 2 8) (memoryDatum (bits s.chc 24 3) (bit s.chc 28) s.mem p.toNat)
  obtain ⟨bytes, others⟩ := storeAt_memory (s := s) (t := (restoreContext s).reserve) (v := 0xFFFFFFFF) rfl hs.width
    (unaligned_physical hp.place hs.aligned) hp.canonical
  exact ⟨_, (exec_return_single hi h hs).trans run, kept.restarted h.valid rfl rfl rfl f, bytes, others,
    oneRegister_of_files hn rfl rfl rfl rfl⟩

theorem return_restartsStore {p : Word} {w : Nat} (hs : RestartsSingle s) (store : bit s.chc 15 = false)
    (hp : RestartsStore s p w) :
    ∃ t, exec i s = .next t ∧ Restarted s t ∧ HoldsLanes (bits s.chc 24 3) t.mem p.toNat s.chd ∧
      SameMemoryOutside p.toNat (optBytes (bits s.chc 24 3)) s t ∧ SameRegisters s t := by
  obtain ⟨f, run⟩ := restartAccess_store (t := (restoreContext s).reserve) hs.width hs.aligned store
    ((locate_returned s _).trans hp.place) ((hitsWords_returned s p).trans hp.clear)
  have aligned := unaligned_physical hp.place hs.aligned
  have kept := (accessed_reserve (restoreContext s)).storeAt (bits s.chc 24 3) p
    (selectData (bits s.chc 24 3) false p s.chd)
  obtain ⟨bytes, others⟩ := storeAt_memory (s := s) (t := (restoreContext s).reserve)
    (v := selectData (bits s.chc 24 3) false p s.chd) rfl hs.width aligned hp.canonical
  exact ⟨_, (exec_return_single hi h hs).trans run, kept.restarted h.valid rfl rfl rfl f,
    fun j hj => (bytes j hj).trans (byteOfWord_selectData hs.width aligned hj), others,
    sameRegisters_of_files rfl rfl rfl rfl⟩

end

/-! ### The rest of a multiple (49 R447, 45 R339)

The transfers of a fresh sequence are followed above; a resumed one ends in `id` where that completes the instruction, and
its stores keep clear of the words after the return. -/

theorem ahead_congr (q : Sequence) {s t : State} (h : Accessed s t) : q.ahead t = q.ahead s := by
  cases q with
  | fresh => exact wordsAhead_congr h.sameDevices h.npc
  | resumed held =>
    show t.wordsAfterReturn = s.wordsAfterReturn
    rw [State.wordsAfterReturn, State.wordsAfterReturn, h.pc, h.npc]

section

variable {cntl : BitVec 8} (q : Sequence) {left : Nat} {n : AbsReg} {a : Word} {phys : Nat → Word} {s : State}

/-- The loads that remain of any sequence, by induction on their number. -/
theorem sequence_loads (h : TransfersReady left n a phys s) :
    ∃ u, transfersLeft true cntl q left n a s = .next (q.leave (endMultiple u)) ∧ Accessed s u ∧
      WordsLoaded left n phys s u := by
  induction left generalizing n a phys s with
  | zero => exact ⟨s, rfl, rfl, nofun, fun _ _ _ => rfl, rfl⟩
  | succ left ih =>
    obtain ⟨storage, isOpen, w, place⟩ := h.first
    have core := coreKept_recordTransfer true cntl left n a s
    have kept := accessed_recordTransfer true cntl left n a s
    have there : physical (recordTransfer true cntl left n a s.reserve) a = some (phys 0) := by
      rw [physical, locate_congr kept.sameDevices, place]
    have round := transfersLeft_round (q := q) h.alone h.noDma isOpen h.noWarn h.noEvent
      (transfer_load storage h.aligned there)
    generalize recordTransfer true cntl left n a s.reserve = r at core kept round
    rw [core.mem] at round
    have one : OneRegister false n _ s (r.putReg false n (Memory.word s.mem (phys 0).toNat)) :=
      .of_same core.registers (oneRegister_of_files storage rfl rfl rfl rfl)
    have moved := kept.putReg false n (Memory.word s.mem (phys 0).toNat)
    obtain ⟨u, run, ended, loaded⟩ := ih (h.tail.kept moved)
    exact ⟨u, round.trans run, moved.trans ended, loaded.cons storage one core.mem⟩

/-- A word stored by a transfer clear of the words at `ahead`. -/
theorem transfer_store_clear {ahead : List Word} {p : Word} {w : Nat} (aligned : bits a 0 2 = 0)
    (place : locate s a = .dram p w) (clear : hitsWords s ahead p = false) :
    transfer false ahead n a s = .done (s.storeAt 0 p (readReg 3 n s)) :=
  memStore_dram (opt := 0) (v := readReg 3 n s) rfl (by simp [unaligned, aligned]) place clear

/-- The stores that remain of any sequence, by the same induction. -/
theorem sequence_stores (h : TransfersReady left n a phys s) (canonical : Memory.wf s.mem = true)
    (clear : ∀ k, k < left → hitsWords s (q.ahead s) (phys k) = false) :
    ∃ u, transfersLeft false cntl q left n a s = .next (q.leave (endMultiple u)) ∧ Accessed s u ∧
      WordsStored left n phys s u := by
  induction left generalizing n a phys s with
  | zero => exact ⟨s, rfl, rfl, nofun, fun _ _ => rfl, fun _ _ => rfl, rfl⟩
  | succ left ih =>
    obtain ⟨storage, isOpen, w, place⟩ := h.first
    have core := coreKept_recordTransfer false cntl left n a s
    have kept := accessed_recordTransfer false cntl left n a s
    have value : readReg 3 n (recordTransfer false cntl left n a s.reserve) = regAt s n :=
      (readReg_congr 3 0 storage rfl rfl rfl).trans (core.registers.regs n storage)
    have still {t : State} (k : Accessed s t) {p : Word} (hp : hitsWords s (q.ahead s) p = false) :
        hitsWords t (q.ahead t) p = false := by
      rwa [ahead_congr q k, hitsWords_congr k.sameDevices]
    have round := transfersLeft_round (q := q) h.alone h.noDma isOpen h.noWarn h.noEvent (transfer_store_clear h.aligned
      ((locate_congr kept.sameDevices a).trans place) (still kept (clear 0 (Nat.succ_pos _))))
    rw [value] at round
    generalize recordTransfer false cntl left n a s.reserve = r at core kept round
    have moved := kept.storeAt 0 (phys 0) (regAt s n)
    have even : unaligned 0 (phys 0) = false := by simp [unaligned, h.low_phys (Nat.succ_pos _)]
    obtain ⟨bytes, outside⟩ := storeAt_memory (v := regAt s n) core.mem rfl even canonical
    have wf : Memory.wf (r.storeAt 0 (phys 0) (regAt s n)).mem = true := by
      rw [storeAt_mem, core.mem]
      exact Memory.wf_putBytes canonical _ _
    obtain ⟨u, run, ended, stored⟩ := ih (h.tail.kept moved) wf fun k hk =>
      still moved (clear (k + 1) (Nat.succ_lt_succ hk))
    exact ⟨u, round.trans run, moved.trans ended, stored.cons (fun k => h.low_phys) (fun k hk => (h.regs k hk).1)
      (word_of_holdsDatum bytes) outside (core.registers.trans (sameRegisters_storeAt ..))⟩

end

/-- The first transfer is made from the channel registers, the others follow under the restored status. -/
theorem resumeMultiple_goes {t u : State} (thawed : t.fz = false)
    (first : resumeFirst (bit t.chc 15) (bits t.chc 2 8) t = .done u) :
    resumeMultiple t = transfersLeft (bit t.chc 15) (bits t.chc 24 8) (.resumed (asyncEvent t)) t.cr.toNat
      (nextReg (bits t.chc 2 8)) (t.cha + 4) u := by
  unfold resumeMultiple
  simp only [thawed, Bool.false_eq_true, if_false, first, Access.restart]

namespace ResumesMultiple

variable {s : State} {phys : Nat → Word} (h : ResumesMultiple s phys)

include h

theorem first_place : ∃ w, locate s s.cha = .dram (phys 0) w := by
  have place := h.memory 0 (Nat.zero_le _)
  rwa [multipleAddr_zero] at place

theorem first_storage : hasStorage (bits s.chc 2 8) = true := h.present 0 (Nat.zero_le _)

theorem low_phys {k : Nat} (hk : k ≤ s.cr.toNat) : bits (phys k) 0 2 = 0 := by
  obtain ⟨w, place⟩ := h.memory k hk
  exact (bits_low_of_low16 (locate_dram_low16 place)).trans (low_multipleAddr h.aligned k)

/-- The transfers after the first one can be made under the restored status. -/
theorem rest : TransfersReady s.cr.toNat (nextReg (bits s.chc 2 8)) (s.cha + 4) (fun k => phys (k + 1))
    (restoreContext s) where
  alone := h.alone
  noDma := (busTaken_congr (sameDevices_restoreContext s)).trans h.noDma
  noWarn := h.noWarn
  noEvent := h.noEvent
  aligned := low_add_four h.aligned
  regs k hk := by
    rw [multipleReg_next]
    exact ⟨h.present (k + 1) hk, h.isOpen (k + 1) hk (Nat.succ_pos k)⟩
  memory k hk := by
    rw [multipleAddr_next, locate_congr (sameDevices_restoreContext s)]
    exact h.memory (k + 1) hk

/-- The return goes on with the transfers that remain, once the first one led to u. -/
theorem exec_return {i : Instr} (hi : i ∈ [Instr.iret, Instr.iretinv]) (hr : Restartable s) {u : State}
    (first : resumeFirst (bit s.chc 15) (bits s.chc 2 8) (restoreContext s).reserve = .done u) :
    exec i s = transfersLeft (bit s.chc 15) (bits s.chc 24 8) (.resumed (asyncEvent (restoreContext s).reserve))
      s.cr.toNat (nextReg (bits s.chc 2 8)) (s.cha + 4) u := by
  have thawed : (restoreContext s).reserve.fz = false := (restored_fz s).trans h.unfrozen
  rw [returns_run i hi s hr.supervisor, interruptReturn_restarts hr, if_pos h.multi]
  exact resumeMultiple_goes thawed first

theorem return_resumesLoads {i : Instr} (hi : i ∈ [Instr.iret, Instr.iretinv]) (hr : Restartable s)
    (load : bit s.chc 15 = true) :
    ∃ u, exec i s = .next (endMultiple u) ∧ Accessed (restoreContext s) u ∧
      WordsLoaded (s.cr.toNat + 1) (bits s.chc 2 8) phys s u := by
  obtain ⟨w, place⟩ := h.first_place
  have there : physical (restoreContext s).reserve s.cha = some (phys 0) := by rw [physical_returned, physical, place]
  have first : resumeFirst (bit s.chc 15) (bits s.chc 2 8) (restoreContext s).reserve = .done
      ((restoreContext s).reserve.putReg false (bits s.chc 2 8) (Memory.word s.mem (phys 0).toNat)) := by
    rw [load]
    exact transfer_load (l := []) h.first_storage h.aligned there
  have run := h.exec_return hi hr first
  have moved := (accessed_reserve (restoreContext s)).putReg false (bits s.chc 2 8)
    (Memory.word s.mem (phys 0).toNat)
  obtain ⟨u, rest, ended, loaded⟩ := sequence_loads (cntl := bits s.chc 24 8) (.resumed _) (h.rest.kept moved)
  rw [load] at run
  have one : OneRegister false (bits s.chc 2 8) (Memory.word s.mem (phys 0).toNat) s
      ((restoreContext s).reserve.putReg false (bits s.chc 2 8) (Memory.word s.mem (phys 0).toNat)) :=
    oneRegister_of_files h.first_storage rfl rfl rfl rfl
  exact ⟨u, run.trans rest, moved.trans ended, loaded.cons h.first_storage one rfl⟩

/-- The first store drives CHD and leads to the state t, the others are those of a sequence from there. -/
theorem return_resumesStores {i : Instr} (hi : i ∈ [Instr.iret, Instr.iretinv]) (hr : Restartable s)
    (store : bit s.chc 15 = false) (canonical : Memory.wf s.mem = true)
    (clear : ∀ k, k ≤ s.cr.toNat → hitsWords s (restoreContext s).wordsAfterReturn (phys k) = false) :
    ∃ t u, exec i s = .next (endMultiple u) ∧ Accessed (restoreContext s) u ∧
      Memory.word t.mem (phys 0).toNat = s.chd ∧ SameMemoryOutside (phys 0).toNat 4 s t ∧ SameRegisters s t ∧
      WordsStored s.cr.toNat (nextReg (bits s.chc 2 8)) (fun k => phys (k + 1)) t u := by
  obtain ⟨w, place⟩ := h.first_place
  have even : unaligned 0 s.cha = false := by simp [unaligned, h.aligned]
  have still (k : Nat) (hk : k ≤ s.cr.toNat) := (hitsWords_returned s (phys k)).trans (clear k hk)
  have first : resumeFirst (bit s.chc 15) (bits s.chc 2 8) (restoreContext s).reserve =
      .done ((restoreContext s).reserve.storeAt 0 (phys 0) s.chd) := by
    rw [store]
    exact memStore_dram rfl even ((locate_returned s _).trans place) (still 0 (Nat.zero_le _))
  have run := h.exec_return hi hr first
  have moved := (accessed_reserve (restoreContext s)).storeAt 0 (phys 0) s.chd
  obtain ⟨bytes, outside⟩ := storeAt_memory (s := s) (t := (restoreContext s).reserve) (v := s.chd) rfl rfl
    (unaligned_physical place even) canonical
  have wf : Memory.wf ((restoreContext s).reserve.storeAt 0 (phys 0) s.chd).mem = true :=
    Memory.wf_putBytes canonical _ _
  obtain ⟨u, rest, ended, stored⟩ := sequence_stores (cntl := bits s.chc 24 8) (.resumed _) (h.rest.kept moved) wf
    fun k hk => (hitsWords_congr (moved.sameDevices) _ _).trans (still (k + 1) hk)
  rw [store] at run
  exact ⟨_, u, run.trans rest, moved.trans ended, word_of_holdsDatum bytes, outside,
    sameRegisters_of_files rfl rfl rfl rfl, stored⟩

end ResumesMultiple

/-- The end of a resumed multiple leaves the return as it was, and CV = 0. -/
theorem endMultiple_cv (u : State) : (endMultiple u).cv = false := finish_endMultiple_cv u

/-- Settles O45. -/
theorem interruptReturnRestartsAccess : Obligations.InterruptReturnRestartsAccess := by
  intro i hi s hr
  refine ⟨fun p => return_restartsLoad hi hr, fun p w => return_restartsLoadSet hi hr,
    fun p w => return_restartsStore hi hr, fun phys h load => ?loads, fun phys h store canonical clear => ?stores⟩
  case loads =>
    obtain ⟨u, run, kept, last, others, mem⟩ := h.return_resumesLoads hi hr load
    have ended : Accessed (restoreContext s) (endMultiple u) := kept.trans rfl
    have same : SameRegisters u (endMultiple u) := sameRegisters_of_files rfl rfl rfl rfl
    refine ⟨_, run, ended.returned, endMultiple_cv u, fun x => congrArg (Memory.get · x) mem, fun k hk later => ?_,
      fun m hm away => (same.regs m hm).trans (others m hm fun k hk => away k (Nat.le_of_lt_succ hk))⟩
    exact (same.regs _ (h.present k hk)).trans
      (last k (Nat.lt_succ_of_le hk) fun j hkj hj => later j hkj (Nat.le_of_lt_succ hj))
  case stores =>
    obtain ⟨t, u, run, kept, first, outside, registers, last, others, later⟩ :=
      h.return_resumesStores hi hr store canonical clear
    have ended : Accessed (restoreContext s) (endMultiple u) := kept.trans rfl
    have same : SameRegisters u (endMultiple u) := sameRegisters_of_files rfl rfl rfl rfl
    refine ⟨_, run, ended.returned, endMultiple_cv u, (registers.trans later).trans same, fun k hk apart => ?_,
      fun x away => ?_⟩
    · cases k with
      | zero =>
        rw [if_pos rfl, ← first]
        refine word_congr_bytes fun b hb => others _ fun j hj => ?_
        exact words_apart (h.low_phys hk) (h.low_phys hj) (apart (j + 1) (Nat.succ_pos j) hj) hb
      | succ k =>
        rw [if_neg (Nat.succ_ne_zero k), ← registers.regs _ (h.present _ hk), ← multipleReg_next]
        exact last k hk fun j hkj hj => apart (j + 1) (Nat.succ_lt_succ hkj) hj
    · exact (others x fun k hk => away (k + 1) hk).trans (outside x (away 0 (Nat.zero_le _)))

end Sys2Proof.Machine
end

section
/-! PROOFS. A step of the core: the instruction at pc, an asynchronous event before it, Wait mode, the timer that counts
first, and WARN, which comes before all of them (60 R466, R481-R489). -/

namespace Sys2Proof.Machine

/-! ### The instruction at pc (60 R466 steps 4-8) -/

theorem decode_of_decodeBytes {b0 b1 b2 b3 : Byte} {i : Instr} (h : decodeBytes b0 b1 b2 b3 = some i) :
    decode (wordOfBytes b0 b1 b2 b3) = .instr i := by
  unfold decodeBytes at h
  split at h
  · next j e => rw [e, Option.some.inj h]
  · cases h

/-- Settles O47: the fetch at pc reads the four bytes, and the rest is how a step is put together. -/
theorem stepRunsInstruction : Obligations.StepRunsInstruction := by
  intro s p i schedule noDma mode noWarn noEvent noMultiple noWait aligned place bytes
  have fetched : fetch (advanceTimer s) (advanceTimer s).pc = .word (Memory.word s.mem p.toNat) :=
    (fetch_advanceTimer s).trans (fetch_of_physical place aligned).2
  have word : decode (Memory.word s.mem p.toNat) = .instr i := decode_of_decodeBytes bytes
  have cycle : coreCycle s = onNext (trackFlight i (advanceTimer s)) (exec i (advanceTimer s)) := by
    simp only [coreCycle, noMultiple, noWarn, noEvent, noWait, fetchAndRun, fetched, runWord, word, runInstr,
      Bool.false_eq_true, if_false]
  rw [step, schedule]
  simp only [noDma, Bool.false_eq_true, if_false]
  rw [coreTurn, coreStep, if_pos (.inl mode), cycle]

/-! ### The end of a step in which the core alone acts -/

/-- In the Executing mode, and with WARN in every mode, the core makes its cycle and the I/O lines are sampled (60 R461). -/
theorem step_acts {s u : State} (h : CoreAlone s) (acts : s.mode = .executing ∨ s.warnLatch = true)
    (cycle : coreCycle s = .next u) (pending : u.dbg.pending = []) : step s = .next (samplePio u) := by
  have turn : s.mode = .executing ∨ s.warnLatch = true ∨ s.multiple.isSome = true :=
    acts.elim .inl fun warn => .inr (.inl warn)
  have settled : (samplePio u).dbg.pending = [] := by rw [samplePio_dbg, pending]
  rw [step, h.schedule]
  simp only [h.noDma, Bool.false_eq_true, if_false]
  rw [coreTurn, coreStep, if_pos turn, cycle]
  exact applyPending_none settled

/-! ### Asynchronous events (60 R466 step 2, R481) -/

theorem map_find_cons {α β : Type} (p : α → Bool) (f : α → β) (a : α) (l : List α) :
    ((a :: l).find? p).map f = if p a then some (f a) else (l.find? p).map f := by
  rw [List.find?_cons]
  cases p a <;> rfl

/-- The event taken is the first one in the order of the priorities. -/
theorem asyncEvent_eq_find (s : State) : asyncEvent s = (eventOrder.find? fun p => p.2 s).map (·.1) := by
  simp only [eventOrder, map_find_cons]
  rfl

theorem coreCycle_event {s : State} {vn : VecNum} (h : CoreAlone s) (noWarn : s.warnLatch = false)
    (event : asyncEvent s = some vn) : coreCycle s = takeTrap vn (advanceTimer s) := by
  simp only [coreCycle, h.noMultiple, noWarn, event, Bool.false_eq_true, if_false]

/-- Settles O48: the entry is from the state before the timer counted, and nothing but the entry happens. -/
theorem asyncEventTakenFirst : Obligations.AsyncEventTakenFirst := by
  intro s e h mode noWarn first hc
  have event : asyncEvent s = some e.1 := by rw [asyncEvent_eq_find, first]; rfl
  obtain ⟨a, vector⟩ := Option.isSome_iff_exists.mp hc.advanceTimer.vector
  have cycle := (coreCycle_event h noWarn event).trans (takeTrap_some vector hc.settled)
  have trapped := (trapped_of_entry vector).of_advanceTimer.samplePio
  have kept := ((dataKept_advanceTimer s).trans (dataKept_entry a _)).trans (dataKept_samplePio _)
  exact ⟨_, step_alone h mode cycle (by simp), trapped, kept.registers, kept.status, kept.sameMemory, kept.channel,
    samplePio_ipa _, samplePio_ipb _, samplePio_ipc _⟩

/-! ### Wait mode (60 R489) -/

theorem coreCycle_wait {s : State} (h : CoreAlone s) (noWarn : s.warnLatch = false) (noEvent : asyncEvent s = none)
    (wait : s.wm = true) : coreCycle s = .next (advanceTimer s).reserve := by
  simp only [coreCycle, h.noMultiple, noWarn, noEvent, wait, Bool.false_eq_true, if_false, if_true]

theorem dataKept_reserve (s : State) : DataKept s s.reserve :=
  ⟨sameRegisters_of_files rfl rfl rfl rfl, ⟨rfl, rfl⟩, rfl, ⟨rfl, rfl, rfl⟩⟩

/-- Settles O50. -/
theorem waitModeIdles : Obligations.WaitModeIdles := by
  intro s h mode noWarn noEvent wait
  have kept := ((dataKept_advanceTimer s).trans (dataKept_reserve _)).trans (dataKept_samplePio _)
  exact ⟨_, step_alone h mode (coreCycle_wait h noWarn noEvent wait) rfl, samplePio_pc _, samplePio_npc _,
    samplePio_cps _, kept.registers, kept.status, kept.sameMemory,
    ⟨samplePio_ops _, samplePio_pc0 _, samplePio_pc1 _, samplePio_pc2 _⟩, kept.channel,
    ⟨samplePio_ipa _, samplePio_ipb _, samplePio_ipc _⟩, samplePio_vab _, samplePio_rbp _, samplePio_tmc _,
    samplePio_tmr _⟩

/-! ### The timer (60 R486) -/

/-- A cycle after others is one more cycle. -/
theorem timerTicks_succ (n : Nat) (p : Word × Word) :
    timerTicks (n + 1) p = timerTick (timerTicks n p).1 (timerTicks n p).2 := by
  induction n generalizing p with
  | zero => rfl
  | succ n ih => exact ih _

/-- TMC counts down while it is not zero (10 R43). -/
theorem timerTick_counts {tmc : Word} (tmr : Word) (width : tmc.toNat < 2 ^ 24) (pos : 0 < tmc.toNat) :
    timerTick tmc tmr = (tmc - 1, tmr) := by
  have value : (bits tmc 0 24).toNat = tmc.toNat := by
    simp only [bits, BitVec.extractLsb'_toNat, Nat.shiftRight_zero]
    omega
  have notZero : bits tmc 0 24 ≠ 0 := fun zero => by simp [zero] at value; omega
  have down : (zext (bits tmc 0 24 - 1) : Word) = tmc - 1 := by
    have one : (1 : Word).toNat = 1 ∧ (1 : BitVec 24).toNat = 1 := ⟨rfl, rfl⟩
    apply BitVec.eq_of_toNat_eq
    rw [zext, BitVec.toNat_setWidth, BitVec.toNat_sub_of_le (by rw [BitVec.le_def]; omega), BitVec.toNat_sub_of_le
      (by rw [BitVec.le_def]; omega)]
    omega
  simp only [timerTick, notZero, if_false, down]

theorem timerTicks_countDown {tmc : Word} (tmr : Word) (width : tmc.toNat < 2 ^ 24) {n : Nat} (h : n ≤ tmc.toNat) :
    timerTicks n (tmc, tmr) = (tmc - BitVec.ofNat 32 n, tmr) := by
  induction n with
  | zero => exact congrArg (·, tmr) (BitVec.sub_zero tmc).symm
  | succ n ih =>
    have left : (tmc - BitVec.ofNat 32 n).toNat = tmc.toNat - n := by
      rw [BitVec.toNat_sub, BitVec.toNat_ofNat]
      omega
    have tick := timerTick_counts (tmc := tmc - BitVec.ofNat 32 n) tmr (by omega) (by omega)
    rw [timerTicks_succ, ih (by omega), tick, BitVec.sub_sub, BitVec.ofNat_add]
    rfl

/-- Zero reloads TMC, sets IN, and sets OV where IN was still set (10 R44). -/
theorem timerTick_reloads (tmr : Word) : (timerTick 0 tmr).1 = (bits tmr 0 24).setWidth 32 ∧
    bit (timerTick 0 tmr).2 25 = true ∧ bit (timerTick 0 tmr).2 26 = (bit tmr 26 || bit tmr 25) := by
  have reload : timerTick 0 tmr =
      (zext (bits tmr 0 24 : BitVec 24), putBit (if bit tmr 25 then putBit tmr 26 true else tmr) 25 true) := rfl
  rw [reload]
  refine ⟨rfl, bit_putBit_same _ _ _ (by decide), (bit_putBit_ne _ 25 26 _ (by decide) (by decide)).trans ?_⟩
  cases h : bit tmr 25 with
  | true => rw [Bool.or_true, if_pos rfl, bit_putBit_same _ _ _ (by decide)]
  | false => rw [Bool.or_false, if_neg Bool.false_ne_true]

/-- Settles O52. -/
theorem timerCountsDown : Obligations.TimerCountsDown := by
  intro tmc tmr n width
  refine ⟨timerTicks_countDown tmr width, ?_⟩
  rintro rfl
  have zero : tmc - BitVec.ofNat 32 tmc.toNat = 0 := by
    rw [BitVec.ofNat_toNat, BitVec.setWidth_eq]
    exact BitVec.sub_self tmc
  rw [timerTicks_succ, timerTicks_countDown tmr width (Nat.le_refl _), zero]
  exact timerTick_reloads tmr

/-! ### WARN (60 R484) -/

theorem coreCycle_warn {s : State} (h : CoreAlone s) (warn : s.warnLatch = true) :
    coreCycle s = .next (takeWarn (advanceTimer s)) := by
  simp only [coreCycle, h.noMultiple, warn, if_true]

/-- What is cut off is an access: no more than accesses may change is changed (60 R474, R484). -/
theorem accessed_cutOff (s : State) : Accessed s (cutOff s) := by
  unfold cutOff
  split
  · rfl
  · split
    · dsimp only
      split
      · split <;> rfl
      · rfl
    · rfl

/-- CHA and CHD are those of the access already. -/
theorem cutOff_address (s : State) : (cutOff s).cha = s.cha ∧ (cutOff s).chd = s.chd := by
  unfold cutOff
  split
  · exact ⟨rfl, rfl⟩
  · split
    · dsimp only
      split
      · split <;> exact ⟨rfl, rfl⟩
      · exact ⟨rfl, rfl⟩
    · exact ⟨rfl, rfl⟩

/-- Nothing is cut off where no access is outstanding. -/
theorem cutOff_idle {s : State} (h : s.flight = none) : cutOff s = s := by rw [cutOff, h]

/-- CHC stays, or describes the access cut off, with CV = 1 and NN for a datum no longer needed. -/
theorem cutOff_chc (s : State) : (cutOff s).chc = s.chc ∨ s.fz = false ∧ ∃ f, s.flight = some f ∧
    (cutOff s).chc = putBit (putBit s.chc 0 true) 1 (!f.needed) := by
  cases hf : s.flight with
  | none => exact .inl (congrArg State.chc (cutOff_idle hf))
  | some f =>
    cases outstanding : s.freeBool 0 with
    | false => exact .inl (by simp only [cutOff, hf, outstanding]; rfl)
    | true =>
      have chc : (cutOff s).chc = if s.fz then s.chc else putBit (putBit s.chc 0 true) 1 (!f.needed) := by
        simp only [cutOff, hf, outstanding, if_true]
        split
        · split <;> rfl
        · rfl
      cases frozen : s.fz with
      | true => exact .inl (chc.trans (if_pos frozen))
      | false => exact .inr ⟨rfl, f, rfl, chc.trans (if_neg (by simp [frozen]))⟩

/-- PC0-PC2 count as frozen under the forced status too (log 39). -/
theorem warnContext_settled {s : State} (h : s.fzSettle = 0) (forced : Bool) : warnContext s forced = { s with
    pc0 := if s.fz || forced then s.pc0 else s.npc
    pc1 := if s.fz || forced then s.pc1 else s.pc
    pc2 := if s.fz || forced then s.pc2 else s.prevPc } := by
  cases forced with
  | true => simp [warnContext]
  | false => simp [warnContext, saveContext_settled h, savePcs]

/-- CPS.IP depends on the requests of the pins and of ICT, and on the enables in CPS. -/
theorem cpsValue_congr {s t : State} (variant : t.variant = s.variant) (pins : t.pins = s.pins) (ict : t.ict = s.ict)
    (cps : t.cps = s.cps) : cpsValue t = putBit s.cps 14 (ipBit s) := by
  have da : t.da = s.da := congrArg (bit · 0) cps
  have di : t.di = s.di := congrArg (bit · 1) cps
  have im : t.im = s.im := congrArg (bits · 2 2) cps
  simp only [cpsValue, ipBit, intrRequest, intrInputs, internalRequest, intrEnabled, da, di, im, variant, pins, ict, cps]

/-- The entry of a WARN from the state s: execution begins at address 16, and what the handler finds saved is s. -/
structure WarnEntered (forced : Bool) (s t : State) : Prop where
  pc : t.pc = 16
  npc : t.npc = 20
  ops : t.ops = cpsValue s
  cps : t.cps = trapCps s.cps
  pc0 : t.pc0 = if s.fz || forced then s.pc0 else s.npc
  pc1 : t.pc1 = if s.fz || forced then s.pc1 else s.pc
  pc2 : t.pc2 = if s.fz || forced then s.pc2 else s.prevPc
  data : DataKept s t
  pointers : SamePointers s t
  vab : t.vab = s.vab
  rbp : t.rbp = s.rbp
  mode : t.mode = s.mode
  warnLatch : t.warnLatch = s.warnLatch
  dbg : t.dbg = s.dbg

theorem warnEntered {s : State} (h : s.fzSettle = 0) (forced : Bool) :
    WarnEntered forced s (enterHandler 0x10 (saveStatus (warnContext s forced))) := by
  rw [warnContext_settled h]
  exact ⟨rfl, rfl, cpsValue_congr rfl rfl rfl rfl, rfl, rfl, rfl, rfl,
    ⟨sameRegisters_of_files rfl rfl rfl rfl, ⟨rfl, rfl⟩, rfl, ⟨rfl, rfl, rfl⟩⟩, ⟨rfl, rfl, rfl⟩, rfl, rfl, rfl, rfl, rfl⟩

/-- The sampling of the I/O lines leaves all of that as it is. -/
theorem WarnEntered.samplePio {forced : Bool} {s t : State} (h : WarnEntered forced s t) :
    WarnEntered forced s (samplePio t) where
  pc := (samplePio_pc t).trans h.pc
  npc := (samplePio_npc t).trans h.npc
  ops := (samplePio_ops t).trans h.ops
  cps := (samplePio_cps t).trans h.cps
  pc0 := (samplePio_pc0 t).trans h.pc0
  pc1 := (samplePio_pc1 t).trans h.pc1
  pc2 := (samplePio_pc2 t).trans h.pc2
  data := h.data.trans (dataKept_samplePio t)
  pointers := ⟨(samplePio_ipa t).trans h.pointers.ipa, (samplePio_ipb t).trans h.pointers.ipb,
    (samplePio_ipc t).trans h.pointers.ipc⟩
  vab := (samplePio_vab t).trans h.vab
  rbp := (samplePio_rbp t).trans h.rbp
  mode := (samplePio_mode t).trans h.mode
  warnLatch := (samplePio_warnLatch t).trans h.warnLatch
  dbg := (samplePio_dbg t).trans h.dbg

/-- The state whose context a WARN saves: the accesses are over, and the peripherals are reset or not. -/
def State.warnPoint (s : State) : State :=
  { warnPeripherals (cutOff s) with warnLatch := false, mode := .executing, dbg := s.dbg.quiet }

theorem takeWarn_eq (s : State) :
    takeWarn s = enterHandler 0x10 (saveStatus (warnContext s.warnPoint s.dbg.forced)) := rfl

/-- A step with WARN latched is the entry, in every mode. -/
theorem step_warn {s : State} (h : CoreAlone s) (warn : s.warnLatch = true) (settled : s.fzSettle = 0) :
    ∃ t, step s = .next t ∧ WarnEntered s.dbg.forced (advanceTimer s).warnPoint t := by
  have still : (advanceTimer s).warnPoint.fzSettle = 0 := (accessed_cutOff (advanceTimer s)).fzSettle.trans settled
  have entered := warnEntered still (advanceTimer s).dbg.forced
  rw [← takeWarn_eq] at entered
  have pending := (congrArg Debug.pending entered.dbg).trans h.noCntl
  exact ⟨_, step_acts h (.inr warn) (coreCycle_warn h warn) pending, entered.samplePio⟩

/-- What CHC says of an access cut off: CV, NN and the count. -/
theorem channel_cutOff {w v : Word} {unneeded : Bool} (h : w = putBit (putBit v 0 true) 1 unneeded) :
    bit w 0 = true ∧ bit w 1 = unneeded ∧ bits w 16 8 = bits v 16 8 := by
  subst h
  refine ⟨?_, bit_putBit_same _ _ _ (by decide), ?_⟩
  · rw [bit_putBit_ne _ 1 0 _ (by decide) (by decide), bit_putBit_same _ _ _ (by decide)]
  · rw [bits_putBit_outside _ 1 16 8 _ (by decide) (by decide), bits_putBit_outside _ 0 16 8 _ (by decide) (by decide)]

/-- The peripherals have no part in the data of the core. -/
theorem dataKept_warnPeripherals (s : State) (d : Debug) :
    DataKept s { warnPeripherals s with warnLatch := false, mode := .executing, dbg := d } :=
  ⟨sameRegisters_of_files rfl rfl rfl rfl, ⟨rfl, rfl⟩, rfl, ⟨rfl, rfl, rfl⟩⟩

theorem dataKept_warnPoint (s : State) : DataKept (cutOff s) s.warnPoint := dataKept_warnPeripherals _ _

/-- Nor has a WARN that finds no access outstanding. -/
theorem dataKept_warnPoint_idle {s : State} (h : s.flight = none) : DataKept s s.warnPoint := by
  have kept := dataKept_warnPoint s
  rwa [cutOff_idle h] at kept

/-- The point a WARN interrupts, with its status, is that before the cut-off and the resets (60 R484). -/
structure SamePoint (s t : State) : Prop where
  pc : t.pc = s.pc
  npc : t.npc = s.npc
  prevPc : t.prevPc = s.prevPc
  fz : t.fz = s.fz
  cps : t.cps = s.cps
  value : cpsValue t = putBit s.cps 14 (ipBit s)
  saved : SameSaved s t
  status : SameStatus s t
  pointers : SamePointers s t
  control : SameControl s t

theorem samePoint_warnPoint (s : State) : SamePoint s s.warnPoint := by
  have access := accessed_cutOff s
  have fields : s.warnPoint = { warnPeripherals (s.accessed (cutOff s)) with
      warnLatch := false, mode := .executing, dbg := s.dbg.quiet } := by rw [← access]; rfl
  rw [fields]
  exact ⟨rfl, rfl, rfl, rfl, rfl, cpsValue_congr rfl rfl rfl rfl, ⟨rfl, rfl, rfl, rfl⟩, ⟨rfl, rfl⟩, ⟨rfl, rfl, rfl⟩,
    ⟨rfl, rfl, rfl, rfl⟩⟩

/-- Settles O49: an access may be cut off and the peripherals may be reset, and the rest is the entry. -/
theorem warnTaken : Obligations.WarnTaken := by
  intro s h warn settled
  obtain ⟨t, run, entered⟩ := step_warn h warn settled
  obtain ⟨pc, npc, prevPc, fz, cps, value, saved, status, pointers, control⟩ := samePoint_warnPoint (advanceTimer s)
  obtain ⟨cha, chd⟩ := cutOff_address (advanceTimer s)
  have channel := ((dataKept_warnPoint (advanceTimer s)).trans entered.data).channel
  refine ⟨t, run, entered.pc, entered.npc, entered.mode, entered.warnLatch, entered.ops.trans value,
    entered.cps.trans (congrArg trapCps cps), ?pc0, ?pc1, ?pc2, channel.cha.trans cha, channel.chd.trans chd, ?channel,
    fun idle => ?idle, ?status, ?pointers, entered.vab.trans control.vab, entered.rbp.trans control.rbp⟩
  case pc0 => rw [entered.pc0, fz, npc, saved.pc0]; rfl
  case pc1 => rw [entered.pc1, fz, pc, saved.pc1]; rfl
  case pc2 => rw [entered.pc2, fz, prevPc, saved.pc2]; rfl
  case channel =>
    exact (cutOff_chc (advanceTimer s)).imp channel.chc.trans fun ⟨thawed, f, outstanding, record⟩ =>
      ⟨thawed, f, outstanding, channel_cutOff (channel.chc.trans record)⟩
  case idle =>
    have kept := ((dataKept_advanceTimer s).trans (dataKept_warnPoint_idle idle)).trans entered.data
    exact ⟨kept.channel.chc, kept.registers, kept.sameMemory⟩
  case status => exact ⟨entered.data.status.alu.trans status.alu, entered.data.status.q.trans status.q⟩
  case pointers =>
    exact ⟨entered.pointers.ipa.trans pointers.ipa, entered.pointers.ipb.trans pointers.ipb,
      entered.pointers.ipc.trans pointers.ipc⟩

end Sys2Proof.Machine
end

section
/-! PROOFS. A store to the Interrupt Control Register (61 R560). -/

namespace Sys2Proof.Machine

/-- The address of ICT (20 R112). -/
def ictAddress : Word := 0x80000028

theorem locate_ict (s : State) : locate s ictAddress = .periph := by
  have region (v : Variant) : region v ictAddress = .periph := by cases v <;> rfl
  rw [locate, region]

theorem pregOf_ict (v : Variant) : pregOf v ictAddress = some .ict := by cases v <;> rfl

theorem accessTrap_ict (s : State) : accessTrap s 0 ictAddress = none := by
  have aligned : unaligned 0 ictAddress = false := rfl
  rw [accessTrap, locate_ict, aligned, Bool.and_false]
  rfl

/-- A word store to ICT is never refused. -/
theorem memWrite_ict (s : State) (v : Word) : memWrite s 0 ictAddress v = .done (writePreg .ict 4 v s) := by
  have defined : reservedWrite s.variant .ict v = false := by
    have none : v &&& reserved205 .ict = 0 := BitVec.and_zero
    simp [reservedWrite, none]
  have store : periphStore ictAddress (optBytes 0) v s = .next (writePreg .ict 4 v s) := by
    simp only [periphStore, pregOf_ict, defined, enabledChange, Bool.false_eq_true, if_false]
    rfl
  have driven : replicateData 0 v = v := rfl
  simp only [memWrite, memStore, driven, accessTrap_ict, storeTo, locate_ict, store]
  rfl

/-- No condition of a unit looks at ICT, so that a store there makes no edge (61 R561). -/
theorem unitEdgeBits_ict (s : State) (v : Word) : unitEdgeBits s { s with ict := v } = 0#32 := by
  have same : ∀ p ∈ irqConditions, p.1 { s with ict := v } = p.1 s := by
    intro p hp
    fin_cases hp <;> rfl
  have noEdge : ∀ acc : Word, ∀ p ∈ irqConditions,
      (if p.1 { s with ict := v } && !p.1 s then putBit acc p.2 true else acc) = acc := by
    intro acc p hp
    rw [same p hp, Bool.and_not_self, if_neg Bool.false_ne_true]
  rw [unitEdgeBits, List.foldl_ext _ _ _ noEdge, List.foldl_fixed]
  rfl

/-- The level-mode lines depend on the I/O port (61 R575). -/
theorem pioLevelBits_congr {s t : State} (h : SameDevices s t) : pioLevelBits t = pioLevelBits s := by
  have mode (n : Nat) : irm t n = irm s n := by rw [irm, irm, h.pio.1]
  have level : pinField t = pinField s := by rw [pinField, pinField, h.pio.1, h.pioSampled.1, h.variant]
  simp only [pioLevelBits, mode, level]

/-- The store clears the bits written as 1, and the active level-mode lines set theirs again. -/
theorem ict_writePreg (s : State) (k : Nat) (v : Word) :
    (writePreg .ict k v s).ict = (s.ict &&& ~~~v) ||| pioLevelBits s := by
  have levels : pioLevelBits { s with ict := s.ict &&& ~~~v } = pioLevelBits s := rfl
  have latched : (writePreg .ict k v s).ict = (s.ict &&& ~~~v) ||| unitEdgeBits s { s with ict := s.ict &&& ~~~v } |||
      pioLevelBits { s with ict := s.ict &&& ~~~v } := rfl
  rw [latched, unitEdgeBits_ict, levels, BitVec.or_zero]

theorem coreKept_writeIct (k : Nat) (v : Word) (s : State) : CoreKept s (writePreg .ict k v s) := by
  have cleared : CoreKept s { s with ict := s.ict &&& ~~~v } := ⟨sameRegisters_of_files rfl rfl rfl rfl, rfl, rfl, rfl⟩
  exact cleared.trans (coreKept_afterAccess .ict s _)

/-- Settles O53. -/
theorem interruptBitsClearByOnes : Obligations.InterruptBitsClearByOnes := by
  intro ra b s n v number isOpen value address unmarked
  have same (d c : Word) := sameDevices_wordAccess s ictAddress d c
  have run : ∃ d c f, exec (.store 0 ra b) s =
      .next (finish ((writePreg .ict 4 v (s.accessing ictAddress d c)).launch f)) := by
    show ∃ d c f, runStore 0 ra b s = _
    unfold runStore
    rw [withAccess_ready number isOpen address unmarked, value]
    exact ⟨_, _, _, congrArg (Access.andThen · _ _) (memWrite_ict (s.accessing ictAddress _ _) v)⟩
  obtain ⟨d, c, f, run⟩ := run
  have kept := ((coreKept_wordAccess s ictAddress d c).trans (coreKept_writeIct 4 v _)).launch f
  have ict : (finish ((writePreg .ict 4 v (s.accessing ictAddress d c)).launch f)).ict =
      (s.ict &&& ~~~v) ||| pioLevelBits s := by
    rw [← (same d c).ict, ← pioLevelBits_congr (same d c)]
    exact ict_writePreg _ 4 v
  exact ⟨_, run, ict, kept.sameRegisters_finish, kept.sameMemory, advances_finish kept.npc kept.cps⟩

end Sys2Proof.Machine
end
